-- ==== Sys2Proof/Word.lean ====
section
/-! DEFINITION. The two word types of RBC (00_scope.md R14: every value is an unsigned integer of a stated
width, bit 0 the least significant). -/

namespace Sys2Proof

/-- One byte of a ring, one operand `d`, one data field of a response. -/
abbrev Byte := BitVec 8

/-- A command word (30_encoding.md R90) or a response word (R94). -/
abbrev Word := BitVec 16

end Sys2Proof
end

