-- ==== Sys2Proof/Config.lean ====
section
/-! DEFINITION. The parameters of RBC (00_scope.md R8 to R13): fixed when the block is built, OPEN in the spec, so
every statement of the model is for every configuration. Log 4 says where the model keeps them. -/

namespace Sys2Proof

/-- The two rings (00_scope.md R5 (a)). -/
inductive RingId where
  | rx
  | tx
deriving DecidableEq, Repr

/-- The pointer synchroniser `SYNC` (00_scope.md R10; 41_sync.md R153, R154, R161). -/
inductive SyncMode where
  | direct
  | gray
  | handshake
deriving DecidableEq, Repr

/-- The modes in which a view is a register of its own and may lag (41_sync.md R162). -/
def SyncMode.lagged : SyncMode → Bool
  | .direct => false
  | .gray => true
  | .handshake => true

/-- The parameters of 00_scope.md R8, R10, R11, R13. -/
structure Config where
  /-- `N_RX` (R8). -/
  nRx : Nat
  /-- `N_TX` (R8). -/
  nTx : Nat
  /-- `SYNC` (R10). -/
  sync : SyncMode
  /-- `ESC_CHAR` (R11). -/
  escChar : Byte
  /-- `CANCEL_CHAR` (R11). -/
  cancelChar : Byte
  /-- `TX_AUTOSTOP` (R13). -/
  txAutostop : Bool
  /-- `QUIRK_CLEARS` (R13). -/
  quirkClears : Bool
deriving DecidableEq, Repr

/-- `N_b`, the capacity of ring `b` (R8). -/
def Config.cap (c : Config) : RingId → Nat
  | .rx => c.nRx
  | .tx => c.nTx

/-- `W = max(1, ceil(log2 N))` for `2 <= N <= 256` (R9). -/
def ptrWidth (n : Nat) : Nat :=
  if n ≤ 2 then 1
  else if n ≤ 4 then 2
  else if n ≤ 8 then 3
  else if n ≤ 16 then 4
  else if n ≤ 32 then 5
  else if n ≤ 64 then 6
  else if n ≤ 128 then 7
  else 8

/-- `W_b`, the width of the pointers and views of ring `b` (R9). -/
def Config.width (c : Config) (b : RingId) : Nat :=
  ptrWidth (c.cap b)

/-- `CR = 0x0D` (R12). -/
def charCr : Byte := 0x0D

/-- `LF = 0x0A` (R12). -/
def charLf : Byte := 0x0A

/-- The reference configuration of 95_test_vectors.md (R11, R13); DESIGN CHOICE of the model for `State.reset`
only, log 4. -/
def Config.reference : Config where
  nRx := 4
  nTx := 4
  sync := .direct
  escChar := 0x1B
  cancelChar := 0x18
  txAutostop := true
  quirkClears := false

end Sys2Proof
end

