-- ==== Sys2Proof/Syntax.lean ====
section
/-! DEFINITION. The commands of RBC (30_encoding.md R92): one constructor per row of spec/opcode_table.json. An operand
has exactly the width its format gives it (R91), so a term of `Instr` is one legal command. -/

namespace Sys2Proof

/-- A command (30_encoding.md R92). -/
inductive Instr where
  /-- NOP, 44_control.md R209. -/
  | nop
  /-- RD, 42_channel.md R171. -/
  | rd
  /-- WR `d`, 42_channel.md R174. -/
  | wr (d : Byte)
  /-- RXPOP, 40_ring.md R137. -/
  | rxpop
  /-- TXPUSH `d`, 40_ring.md R135. -/
  | txpush (d : Byte)
  /-- RXEMPTY, 40_ring.md R139. -/
  | rxempty
  /-- TXFULL, 40_ring.md R140. -/
  | txfull
  /-- FSTEP `d`, 43_filter.md R196. -/
  | fstep (d : Byte)
  /-- CTLR, 44_control.md R210. -/
  | ctlr
  /-- CTLS `d`, 44_control.md R211. -/
  | ctls (d : Byte)
  /-- CTLC `d`, 44_control.md R212. -/
  | ctlc (d : Byte)
  /-- STAT, 44_control.md R214. -/
  | stat
  /-- CACK, 43_filter.md R200. -/
  | cack
  /-- PTRR `s`, 41_sync.md R164. -/
  | ptrr (s : BitVec 3)
deriving DecidableEq, Repr

/-- The three formats of 30_encoding.md R91. -/
inductive Format where
  /-- No operand. -/
  | z
  /-- Byte operand. -/
  | d
  /-- Three-bit selector. -/
  | s
deriving DecidableEq, Repr

/-- The format column of 30_encoding.md R92. -/
def Instr.format : Instr → Format
  | .nop => .z
  | .rd => .z
  | .wr _ => .d
  | .rxpop => .z
  | .txpush _ => .d
  | .rxempty => .z
  | .txfull => .z
  | .fstep _ => .d
  | .ctlr => .z
  | .ctls _ => .d
  | .ctlc _ => .d
  | .stat => .z
  | .cack => .z
  | .ptrr _ => .s

/-- The operand byte `d` of the command word (30_encoding.md R90). -/
def Instr.operand : Instr → Byte
  | .nop => 0
  | .rd => 0
  | .wr d => d
  | .rxpop => 0
  | .txpush d => d
  | .rxempty => 0
  | .txfull => 0
  | .fstep d => d
  | .ctlr => 0
  | .ctls d => d
  | .ctlc d => d
  | .stat => 0
  | .cack => 0
  | .ptrr s => s.setWidth 8

/-- The mnemonic column of 30_encoding.md R92. -/
def Instr.mnemonic : Instr → String
  | .nop => "NOP"
  | .rd => "RD"
  | .wr _ => "WR"
  | .rxpop => "RXPOP"
  | .txpush _ => "TXPUSH"
  | .rxempty => "RXEMPTY"
  | .txfull => "TXFULL"
  | .fstep _ => "FSTEP"
  | .ctlr => "CTLR"
  | .ctls _ => "CTLS"
  | .ctlc _ => "CTLC"
  | .stat => "STAT"
  | .cack => "CACK"
  | .ptrr _ => "PTRR"

end Sys2Proof
end

