-- ==== Sys2Proof/WellFormed.lean ====
section
/-! DEFINITION. What is well formed: an operand byte in its format (30_encoding.md R91), a command, and a configuration
(00_scope.md R8, R10, R13; 93_implementation_defined.md U12). -/

namespace Sys2Proof

/-- What `d` may hold in each format (30_encoding.md R91). -/
def Format.admits : Format → Byte → Bool
  | .z, x => x == 0
  | .d, _ => true
  | .s, x => x.extractLsb' 3 5 == 0

/-- The command's operand byte is one its format admits. -/
def Instr.wf (i : Instr) : Bool :=
  i.format.admits i.operand

/-- `2 <= N <= 256` (00_scope.md R8). -/
def capOk (n : Nat) : Bool :=
  decide (2 ≤ n) && decide (n ≤ 256)

/-- `N = 2^W`, what `GRAY` asks of both capacities (00_scope.md R10, 41_sync.md R154). -/
def isPow2Cap (n : Nat) : Bool :=
  n == 2 ^ ptrWidth n

/-- The constraints on the parameters: R8, R10 (`GRAY` needs powers of two), R13 (`TX_AUTOSTOP` only with `DIRECT`). -/
def Config.wf (c : Config) : Bool :=
  capOk c.nRx && capOk c.nTx
    && (c.sync != .gray || (isPow2Cap c.nRx && isPow2Cap c.nTx))
    && (!c.txAutostop || c.sync == .direct)

end Sys2Proof
end

