-- ==== Sys2Proof/Decode.lean ====
section
/-! DEFINITION. Decoding a command word (30_encoding.md R90 to R93, R97), the encoder, and
the host's entry `decodeTableWord`. -/

namespace Sys2Proof

/-- `op = w[15:12]` (30_encoding.md R90). -/
def Word.op (w : Word) : BitVec 4 := w.extractLsb' 12 4

/-- `z = w[11:8]`, must be zero (30_encoding.md R90). -/
def Word.zField (w : Word) : BitVec 4 := w.extractLsb' 8 4

/-- `d = w[7:0]` (30_encoding.md R90). -/
def Word.d (w : Word) : Byte := w.extractLsb' 0 8

/-- Why a word is illegal (30_encoding.md R97), in the order of the tests of R93. -/
inductive DecodeError where
  /-- `op` is 0xE or 0xF. -/
  | reservedOpcode
  /-- `z != 0`. -/
  | zNotZero
  /-- The row is of format Z and `d != 0`. -/
  | operandNotZero
  /-- The row is of format S and `d[7:3] != 0`. -/
  | selectorTooLarge
deriving DecidableEq, Repr

/-- A row of format Z: `d` must be 0x00. -/
def formatZ (i : Instr) (d : Byte) : Except DecodeError Instr :=
  if Format.z.admits d then .ok i else .error .operandNotZero

/-- A row of format S: `d[2:0]` is the selector and `d[7:3]` must be zero. -/
def formatS (mk : BitVec 3 → Instr) (d : Byte) : Except DecodeError Instr :=
  if Format.s.admits d then .ok (mk (d.extractLsb' 0 3)) else .error .selectorTooLarge

/-- The opcode map (30_encoding.md R92), by `op`; 0xE and 0xF are reserved. -/
def decodeRow (op : Nat) (d : Byte) : Except DecodeError Instr :=
  match op with
  | 0x0 => formatZ .nop d
  | 0x1 => formatZ .rd d
  | 0x2 => .ok (.wr d)
  | 0x3 => formatZ .rxpop d
  | 0x4 => .ok (.txpush d)
  | 0x5 => formatZ .rxempty d
  | 0x6 => formatZ .txfull d
  | 0x7 => .ok (.fstep d)
  | 0x8 => formatZ .ctlr d
  | 0x9 => .ok (.ctls d)
  | 0xA => .ok (.ctlc d)
  | 0xB => formatZ .stat d
  | 0xC => formatZ .cack d
  | 0xD => formatS .ptrr d
  | _ => .error .reservedOpcode

/-- Decoding is total and depends on nothing but the word; the tests in the order of 30_encoding.md R93. -/
def decode (w : Word) : Except DecodeError Instr :=
  if 0xE ≤ (Word.op w).toNat then .error .reservedOpcode
  else if Word.zField w ≠ 0 then .error .zNotZero
  else decodeRow (Word.op w).toNat (Word.d w)

/-- The `op` column of 30_encoding.md R92. -/
def Instr.opcode : Instr → BitVec 4
  | .nop => 0x0
  | .rd => 0x1
  | .wr _ => 0x2
  | .rxpop => 0x3
  | .txpush _ => 0x4
  | .rxempty => 0x5
  | .txfull => 0x6
  | .fstep _ => 0x7
  | .ctlr => 0x8
  | .ctls _ => 0x9
  | .ctlc _ => 0xA
  | .stat => 0xB
  | .cack => 0xC
  | .ptrr _ => 0xD

/-- The command word `{op, 0000, d}` (30_encoding.md R90). -/
def encode (i : Instr) : Word :=
  i.opcode ++ (0 : BitVec 4) ++ i.operand

/-- The host's entry: the command my decoder reads from a table row's word of `nbits` bits. A command is one 16-bit
value (30_encoding.md R90, 20_memory.md R61: no byte order); a value with a bit above 15 is no command word. -/
def decodeTableWord (nbits w : Nat) : Option Instr :=
  if nbits ≤ 16 ∧ w < 2 ^ 16 then
    match decode (BitVec.ofNat 16 w) with
    | .ok i => some i
    | .error _ => none
  else none

end Sys2Proof
end

