-- ==== Sys2Proof/Machine/State.lean ====
section
/-! DEFINITION. The state of RBC (10_state.md R20), the choices of its environment (60_exceptions.md R247, R289), the
reasons a step can stop, and the state after reset (R50). Plain data throughout. -/

namespace Sys2Proof.Machine

/-- The storage of one ring (10_state.md R42): (slot index, byte), strictly rising, only slots written since reset. A
slot not listed has no value (R43 allows it; log 6). -/
abbrev Memory := List Host.Cell

/-- The state of one ring: storage, the two pointers (10_state.md R41) and the two views (R45). -/
structure Ring where
  /-- `b.storage` (R42). -/
  storage : Memory
  /-- `b.head`, written by the producer (R41). -/
  head : Nat
  /-- `b.tail`, written by the consumer (R41). -/
  tail : Nat
  /-- `b.head_c`, the consumer's view of `head`; a register in the lagging modes only (R45, R153; log 11). -/
  headC : Nat
  /-- `b.tail_p`, the producer's view of `tail`; a register in the lagging modes only (R45, R153; log 11). -/
  tailP : Nat
deriving DecidableEq, Repr

/-- The two command ports (00_scope.md R5 (g)): `F` for the foreground, `A` for interrupt-context software. -/
inductive Port where
  | f
  | a
deriving DecidableEq, Repr

/-- The latches each port has of its own (10_state.md R25 to R28, 60_exceptions.md R254). -/
structure PortState where
  /-- `X.busy` (R28). -/
  busy : Bool
  /-- `X.cmd` (R25). -/
  cmd : Word
  /-- `X.upc` (R28), the index of the next micro-step. -/
  upc : BitVec 4
  /-- `X.rsp` (R26). -/
  rsp : Word
  /-- `X.c` (R27), the byte a WR has in hand. -/
  c : Byte
  /-- `X.lf` (R27), a line feed is still to be written. -/
  lf : Bool
  /-- `X.t` (R27), the byte a RD or RXPOP has loaded. -/
  t : Byte
deriving DecidableEq, Repr

/-- `CTRL[3:0]` (10_state.md R34 to R38). `CTRL[7:4]` have no storage and read as 0 (R39; log 14). -/
structure Ctrl where
  /-- `CTRL[0]` (R35). -/
  rxie : Bool
  /-- `CTRL[1]` (R36). -/
  txie : Bool
  /-- `CTRL[2]` (R37). -/
  crlf : Bool
  /-- `CTRL[3]` (R38). -/
  imask : Bool
deriving DecidableEq, Repr

/-- `insvc` (10_state.md R46): is a port A session open? -/
inductive Insvc where
  | none
  | a
deriving DecidableEq, Repr

/-- Which pointer of a ring a synchroniser carries (41_sync.md R152). -/
inductive PtrSel where
  | head
  | tail
deriving DecidableEq, Repr

/-- The enable a quirk step clears (60_exceptions.md R241). -/
inductive Enable where
  | rxie
  | txie
deriving DecidableEq, Repr

/-- One step of 60_exceptions.md R247, with the input the environment chooses for it (70_reset_and_hazards.md R289). -/
inductive Event where
  /-- Acceptance of a word on a port (10_state.md R30). -/
  | accept (x : Port) (w : Word)
  /-- The micro-step `X.upc` of `X.cmd` (10_state.md R28). -/
  | micro (x : Port)
  /-- `A_ENTER` (60_exceptions.md R248). -/
  | aEnter
  /-- `A_LEAVE` (60_exceptions.md R250). -/
  | aLeave
  /-- `RXP` with byte `v` (60_exceptions.md R236). -/
  | rxp (v : Byte)
  /-- `TXC` (60_exceptions.md R238). -/
  | txc
  /-- `SYN(b.p)` moving the view `k` forward (41_sync.md R158). -/
  | syn (b : RingId) (p : PtrSel) (k : Nat)
  /-- The quirk step (60_exceptions.md R241). -/
  | quirk (e : Enable)
deriving DecidableEq, Repr

/-- The complete state (10_state.md R20), then what the model holds beside it: the parameters (log 4), the
environment's choices still to come (log 1) and the traces (R23; log 10). -/
structure State where
  /-- The receive ring `RX`. -/
  rx : Ring
  /-- The transmit ring `TX`. -/
  tx : Ring
  /-- `ESCF` (R31). -/
  escf : Bool
  /-- `CANCEL_PEND` (R32). -/
  cancelPend : Bool
  /-- `CTRL` (R34). -/
  ctrl : Ctrl
  /-- `insvc` (R46). -/
  insvc : Insvc
  /-- Port F's latches (R25 to R28). -/
  f : PortState
  /-- Port A's latches (R25 to R28). -/
  a : PortState
  /-- `F.sm` (R47), on port F only. -/
  sm : Bool
  /-- MODEL: the parameters (00_scope.md R8 to R13), which no step changes; log 4. -/
  cfg : Config
  /-- MODEL: the steps the environment and the scheduler choose next, oldest first; log 1. -/
  script : List Event
  /-- MODEL: the transmit wire trace (R23), oldest first. -/
  txTrace : List Byte
  /-- MODEL: the length of the cancel trace (R23); its entries carry nothing. -/
  cancelCount : Nat
  /-- MODEL: the response trace (R23), oldest first. -/
  rspTrace : List (Port × Word)
  /-- MODEL: the receive wire trace (R23), every byte an `RXP` step took, oldest first. -/
  rxTrace : List Byte
deriving DecidableEq, Repr

/-- Why a step stops with a fault. -/
inductive Fault where
  /-- Raised by port A's check micro-step on a ring end port F has open (60_exceptions.md R230, 00_scope.md R18). The
  spec says nothing of the machine from there on. Safe: the model claims nothing after it. -/
  | spscViolation
  /-- Raised by a load from a slot nothing has written since reset (10_state.md R43). Safe: the spec says no execution
  does it. -/
  | unwrittenSlot (b : RingId)
  /-- Raised by a load or store at an index outside `[0, N_b)`, which does not exist (20_memory.md R62). Safe: no
  execution does it. -/
  | noSuchSlot (b : RingId)
  /-- Raised by a port whose `upc` is an index its micro-program does not define (10_state.md R28). Safe: no execution
  does it. -/
  | undefinedMicroStep
deriving DecidableEq, Repr

/-- Why a step is refused. -/
inductive Refusal where
  /-- Raised by an arm of `exec` whose instruction has no meaning yet. Safe: the model claims nothing of it. -/
  | notModelled (mnemonic : String)
  /-- Raised by `step` on parameters outside their constraints (93_implementation_defined.md U12: "refuse"). Safe: no
  such block is built. -/
  | illFormedConfig
deriving DecidableEq, Repr

/-- A ring after reset: pointers and views 0, no slot written (10_state.md R50, R43). -/
def Ring.reset : Ring where
  storage := []
  head := 0
  tail := 0
  headC := 0
  tailP := 0

/-- A port after reset (10_state.md R50). -/
def PortState.reset : PortState where
  busy := false
  cmd := 0
  upc := 0
  rsp := 0
  c := 0
  lf := false
  t := 0

/-- `CTRL = 0x04` (10_state.md R50). -/
def Ctrl.reset : Ctrl where
  rxie := false
  txie := false
  crlf := true
  imask := false

/-- The state after reset of a block built with the parameters `c` (10_state.md R50, R52; 70_reset_and_hazards.md R266):
traces empty, nothing presented yet. -/
def State.resetWith (c : Config) : State where
  rx := Ring.reset
  tx := Ring.reset
  escf := false
  cancelPend := false
  ctrl := Ctrl.reset
  insvc := .none
  f := PortState.reset
  a := PortState.reset
  sm := false
  cfg := c
  script := []
  txTrace := []
  cancelCount := 0
  rspTrace := []
  rxTrace := []

/-- The machine right after reset, in the reference configuration (DESIGN CHOICE, log 4). -/
def State.reset : State :=
  State.resetWith Config.reference

end Sys2Proof.Machine
end

