-- ==== Sys2Proof/Machine/Flags.lean ====
section
/-! DEFINITION. The computed registers and words: pointer arithmetic (40_ring.md R125), views (10_state.md R45), the
checks (40_ring.md R123, R124), `CTRL` and `STATUS` as bytes (10_state.md R34, R40), gray code (41_sync.md R155, R156),
the response word (30_encoding.md R94). -/

namespace Sys2Proof.Machine

/-- `inc_N(p) = (p + 1) mod N` (00_scope.md R15), written as 40_ring.md R125 does for any `N`. -/
def incN (n p : Nat) : Nat :=
  if p + 1 < n then p + 1 else 0

/-- `dist_N(a, b) = (b - a) mod N` (00_scope.md R15), for indices `a`, `b` below `N`. -/
def distN (n a b : Nat) : Nat :=
  (b + n - a) % n

/-- The ring `b`. -/
def State.ring (s : State) : RingId → Ring
  | .rx => s.rx
  | .tx => s.tx

/-- `N_b` of this block (00_scope.md R8). -/
def State.cap (s : State) (b : RingId) : Nat :=
  s.cfg.cap b

/-- `occ(b)` (40_ring.md R120). -/
def State.occ (s : State) (b : RingId) : Nat :=
  distN (s.cap b) (s.ring b).tail (s.ring b).head

/-- `b.head_c`, the consumer's view of `b.head`: the pointer itself in `DIRECT` (10_state.md R45, 41_sync.md R153). -/
def State.headView (s : State) (b : RingId) : Nat :=
  if s.cfg.sync.lagged then (s.ring b).headC else (s.ring b).head

/-- `b.tail_p`, the producer's view of `b.tail`: the pointer itself in `DIRECT` (10_state.md R45, 41_sync.md R153). -/
def State.tailView (s : State) (b : RingId) : Nat :=
  if s.cfg.sync.lagged then (s.ring b).tailP else (s.ring b).tail

/-- `empty_c(b)`, the consumer's check (40_ring.md R123). -/
def State.emptyC (s : State) (b : RingId) : Bool :=
  s.headView b == (s.ring b).tail

/-- `full_p(b)`, the producer's check (40_ring.md R124). -/
def State.fullP (s : State) (b : RingId) : Bool :=
  incN (s.cap b) (s.ring b).head == s.tailView b

/-- The 8-bit value of `CTRL`: `{0000, IMASK, CRLF, TXIE, RXIE}` (10_state.md R34, R39; 44_control.md R210). -/
def Ctrl.toByte (c : Ctrl) : Byte :=
  (0 : BitVec 4) ++ BitVec.ofBool c.imask ++ BitVec.ofBool c.crlf ++ BitVec.ofBool c.txie ++ BitVec.ofBool c.rxie

/-- `CTRL | (d & 0x0F)` (44_control.md R211). -/
def Ctrl.setBits (c : Ctrl) (d : Byte) : Ctrl where
  rxie := c.rxie || d.getLsbD 0
  txie := c.txie || d.getLsbD 1
  crlf := c.crlf || d.getLsbD 2
  imask := c.imask || d.getLsbD 3

/-- `CTRL & ~(d & 0x0F)` (44_control.md R212). -/
def Ctrl.clearBits (c : Ctrl) (d : Byte) : Ctrl where
  rxie := c.rxie && !d.getLsbD 0
  txie := c.txie && !d.getLsbD 1
  crlf := c.crlf && !d.getLsbD 2
  imask := c.imask && !d.getLsbD 3

/-- `STATUS = {0000, CANP, ESCF, TXNF, RXNE}`, computed at each read (10_state.md R40). -/
def State.status (s : State) : Byte :=
  (0 : BitVec 4) ++ BitVec.ofBool s.cancelPend ++ BitVec.ofBool s.escf
    ++ BitVec.ofBool (!s.fullP .tx) ++ BitVec.ofBool (!s.emptyC .rx)

/-- `bin2gray_W(p) = p ^ (p >> 1)` (41_sync.md R155). -/
def bin2gray {w : Nat} (p : BitVec w) : BitVec w :=
  p ^^^ (p >>> 1)

/-- `gray2bin_W(g)`: bit `i` is the exclusive or of `g[W-1] .. g[i]` (41_sync.md R156). -/
def gray2bin {w : Nat} (g : BitVec w) : BitVec w :=
  (List.range w).foldl (fun acc k => acc ^^^ (g >>> k)) 0

/-- The gray-coded copy of the pointer `p` of ring `b` that its owner presents to the other side in mode `GRAY`
(41_sync.md R154): a function of the pointer, updated with it, so no state of its own (10_state.md R20; log 13). -/
def State.grayCopy (s : State) (b : RingId) : PtrSel → BitVec (s.cfg.width b)
  | .head => bin2gray (BitVec.ofNat (s.cfg.width b) (s.ring b).head)
  | .tail => bin2gray (BitVec.ofNat (s.cfg.width b) (s.ring b).tail)

/-- The response word `{00000, C, E, V, D}` (30_encoding.md R94). -/
def mkRsp (c e v : Bool) (d : Byte) : Word :=
  (0 : BitVec 5) ++ BitVec.ofBool c ++ BitVec.ofBool e ++ BitVec.ofBool v ++ d

/-- `0x0000`: done, no data, dropped, false (30_encoding.md R95). -/
def rspNone : Word := mkRsp false false false 0

/-- `0x0100 | d`: valid, with a data byte (30_encoding.md R95). -/
def rspData (d : Byte) : Word := mkRsp false false true d

/-- `0x0100` when true, `0x0000` when false (30_encoding.md R95). -/
def rspBool (v : Bool) : Word := mkRsp false false v 0

/-- `0x0400`: the filter raised the cancellation (30_encoding.md R95). -/
def rspCancel : Word := mkRsp true false false 0

/-- `0x0200`: the word was illegal (30_encoding.md R95, R97). -/
def rspIllegal : Word := mkRsp false true false 0

end Sys2Proof.Machine
end

