-- ==== Sys2Proof/Machine/Operands.lean ====
section
/-! DEFINITION. What the operand of a command selects (30_encoding.md R96): the pointers of PTRR (41_sync.md R164). The
byte operands of WR, TXPUSH and FSTEP are used as they stand, and the bit masks of CTLS and CTLC by
`Ctrl.setBits` and `Ctrl.clearBits`. -/

namespace Sys2Proof.Machine

/-- A pointer of width `W` as a byte: `zext_8` of its `W` bits (30_encoding.md R96). -/
def pointerByte (w p : Nat) : Byte :=
  (BitVec.ofNat w p).setWidth 8

/-- A pointer of width `W` in gray code as a byte (41_sync.md R164). -/
def grayByte (w p : Nat) : Byte :=
  (bin2gray (BitVec.ofNat w p)).setWidth 8

/-- `zext_8(val(s))` of 41_sync.md R164. -/
def State.ptrrValue (s : State) (sel : BitVec 3) : Byte :=
  match sel.toNat with
  | 0 => pointerByte (s.cfg.width .tx) s.tx.head
  | 1 => pointerByte (s.cfg.width .tx) (s.tailView .tx)
  | 2 => pointerByte (s.cfg.width .rx) s.rx.tail
  | 3 => pointerByte (s.cfg.width .rx) (s.headView .rx)
  | 4 => grayByte (s.cfg.width .tx) s.tx.head
  | 5 => grayByte (s.cfg.width .tx) (s.tailView .tx)
  | 6 => grayByte (s.cfg.width .rx) s.rx.tail
  | _ => grayByte (s.cfg.width .rx) (s.headView .rx)

end Sys2Proof.Machine
end

