-- ==== Sys2Proof/Machine/Ops.lean ====
section
/-! DEFINITION. The named operations every micro-program is made of: ports and responses (00_scope.md R16), storage
(20_memory.md), the micro-operations of push and pop (40_ring.md R128 to R134), the bracket and the kick
(42_channel.md R172, R180), the filter (43_filter.md R191), the fault rule (60_exceptions.md R230), and entry into and
return from interrupt context (60_exceptions.md R248, R250), which stand where another machine has exceptions (R225:
RBC raises none). -/

namespace Sys2Proof.Machine

/-- What a meaning answers. -/
abbrev Result := Host.Outcome State Fault Refusal

/-- Go on with what an operation found, or stop with its fault. -/
def onOk {α : Type} (r : Except Fault α) (k : α → Result) : Result :=
  match r with
  | .ok x => k x
  | .error e => .fault e

/-! ### Ports -/

/-- The port that may step: F while no session is open, A inside one (60_exceptions.md R247). -/
def State.stepping (s : State) : Port :=
  match s.insvc with
  | .none => .f
  | .a => .a

/-- The latches of port `x`. -/
def State.port (s : State) : Port → PortState
  | .f => s.f
  | .a => s.a

/-- Replace the latches of port `x`. -/
def State.setPort (s : State) (x : Port) (p : PortState) : State :=
  match x with
  | .f => { s with f := p }
  | .a => { s with a := p }

/-- The latches of the port that may step. -/
def State.cur (s : State) : PortState :=
  s.port s.stepping

/-- Replace the latches of the port that may step. -/
def State.setCur (s : State) (p : PortState) : State :=
  s.setPort s.stepping p

/-- `X.upc <- k` (00_scope.md R16). -/
def State.goto (s : State) (k : BitVec 4) : State :=
  s.setCur { s.cur with upc := k }

/-- `respond(X, w)`: `X.rsp <- w`, `X.busy <- 0`, and `(X, w)` goes to the response trace (00_scope.md R16). -/
def State.respond (s : State) (w : Word) : State :=
  { s.setCur { s.cur with rsp := w, busy := false } with rspTrace := s.rspTrace ++ [(s.stepping, w)] }

/-- A micro-program has no micro-step of this index (10_state.md R28; log 8). -/
def undefinedStep : Result :=
  .fault .undefinedMicroStep

/-- A command of one micro-step, u0 (44_control.md R205): its answer there, and no other index. -/
def single (s : State) (answer : State) : Result :=
  match s.cur.upc.toNat with
  | 0 => .next answer
  | _ => undefinedStep

/-- `x_cmd_ready`: port `x` may accept a word (10_state.md R22, R30; 60_exceptions.md R247). -/
def State.cmdReady (s : State) (x : Port) : Bool :=
  s.stepping == x && !(s.port x).busy

/-- Acceptance: `X.cmd <- w`, `X.busy <- 1`, `X.upc <- 0` (10_state.md R30). -/
def State.acceptWord (s : State) (x : Port) (w : Word) : State :=
  s.setPort x { s.port x with cmd := w, busy := true, upc := 0 }

/-! ### Storage (10_state.md R42, 20_memory.md R60 to R68) -/

/-- The byte at an index, if one was written. -/
def Memory.read : Memory → Nat → Option Byte
  | [], _ => none
  | (b, v) :: m, a => if a = b then some v else Memory.read m a

/-- Write one byte, keeping the indices strictly rising. -/
def Memory.write : Memory → Nat → Byte → Memory
  | [], a, v => [(a, v)]
  | (b, w) :: m, a, v =>
    if a < b then (a, v) :: (b, w) :: m
    else if a = b then (a, v) :: m
    else (b, w) :: Memory.write m a v

/-- The canonical form: indices strictly rising (no listed slot is without a value by construction). -/
abbrev Memory.wf (m : Memory) : Prop :=
  m.Pairwise fun x y => x.1 < y.1

/-- Replace ring `b`. -/
def State.setRing (s : State) (b : RingId) (r : Ring) : State :=
  match b with
  | .rx => { s with rx := r }
  | .tx => { s with tx := r }

/-- `MemRead(b, i)` for `0 <= i < N_b` (00_scope.md R16). -/
def State.memRead (s : State) (b : RingId) (i : Nat) : Except Fault Byte :=
  if i < s.cap b then
    match Memory.read (s.ring b).storage i with
    | some v => .ok v
    | none => .error (.unwrittenSlot b)
  else .error (.noSuchSlot b)

/-- `MemWrite(b, i, v)` for `0 <= i < N_b` (00_scope.md R16). -/
def State.memWrite (s : State) (b : RingId) (i : Nat) (v : Byte) : Except Fault State :=
  if i < s.cap b then
    .ok (s.setRing b { s.ring b with storage := Memory.write (s.ring b).storage i v })
  else .error (.noSuchSlot b)

/-! ### The micro-operations of a ring (40_ring.md R129 to R134) -/

/-- PSTO: `b.storage[b.head] <- v` (40_ring.md R129). -/
def State.psto (s : State) (b : RingId) (v : Byte) : Except Fault State :=
  s.memWrite b (s.ring b).head v

/-- PPUB: `b.head <- inc_N(b.head)` (40_ring.md R130). -/
def State.ppub (s : State) (b : RingId) : State :=
  s.setRing b { s.ring b with head := incN (s.cap b) (s.ring b).head }

/-- CLOD: the byte `b.storage[b.tail]` (40_ring.md R132). -/
def State.clod (s : State) (b : RingId) : Except Fault Byte :=
  s.memRead b (s.ring b).tail

/-- CREL: `b.tail <- inc_N(b.tail)` (40_ring.md R133). -/
def State.crel (s : State) (b : RingId) : State :=
  s.setRing b { s.ring b with tail := incN (s.cap b) (s.ring b).tail }

/-- `push_atomic(b, v)` (40_ring.md R134). -/
def State.pushAtomic (s : State) (b : RingId) (v : Byte) : Except Fault (Bool × State) :=
  if s.fullP b then .ok (false, s)
  else
    match s.psto b v with
    | .ok s' => .ok (true, s'.ppub b)
    | .error e => .error e

/-- `pop_atomic(b)` (40_ring.md R134). -/
def State.popAtomic (s : State) (b : RingId) : Except Fault (Option Byte × State) :=
  if s.emptyC b then .ok (none, s)
  else
    match s.clod b with
    | .ok t => .ok (some t, s.crel b)
    | .error e => .error e

/-- CLOD of a port: `X.t <- MemRead(b, b.tail)`, then the next micro-step (40_ring.md R132). -/
def State.loadT (s : State) (b : RingId) (next : BitVec 4) : Result :=
  onOk (s.clod b) fun v => .next ((s.setCur { s.cur with t := v }).goto next)

/-- PSTO of a port, then the next micro-step (40_ring.md R129). -/
def State.storeThen (s : State) (b : RingId) (v : Byte) (next : BitVec 4) : Result :=
  onOk (s.psto b v) fun s' => .next (s'.goto next)

/-! ### The bracket and the kick (42_channel.md R172, R180) -/

/-- ENTER: on port F `F.sm <- CTRL.IMASK; CTRL.IMASK <- 1`; on port A nothing (42_channel.md R172). -/
def State.enter (s : State) : State :=
  match s.stepping with
  | .f => { s with sm := s.ctrl.imask, ctrl := { s.ctrl with imask := true } }
  | .a => s

/-- EXIT: on port F `CTRL.IMASK <- F.sm`; on port A nothing (42_channel.md R172). -/
def State.exit (s : State) : State :=
  match s.stepping with
  | .f => { s with ctrl := { s.ctrl with imask := s.sm } }
  | .a => s

/-- KICK: `CTRL.TXIE <- 1`, "resume transmission" (42_channel.md R180). -/
def State.kick (s : State) : State :=
  { s with ctrl := { s.ctrl with txie := true } }

/-! ### The fault rule (60_exceptions.md R230) -/

/-- `F.open_p`: port F is in a TXPUSH past its check and before its publish (10_state.md R48). -/
def State.openP (s : State) : Bool :=
  s.f.busy
    && (match decode s.f.cmd with
        | .ok (.txpush _) => true
        | _ => false)
    && (s.f.upc == 1 || s.f.upc == 2)

/-- `F.open_c`: port F is in a RXPOP past its check and before its release (10_state.md R48). -/
def State.openC (s : State) : Bool :=
  s.f.busy
    && (match decode s.f.cmd with
        | .ok .rxpop => true
        | _ => false)
    && (s.f.upc == 1 || s.f.upc == 2)

/-- PCHK of a port on `TX` (40_ring.md R128): `fault SpscViolation` when port A makes it while `F.open_p` holds
(60_exceptions.md R230 (a)), else one of the two continuations. -/
def State.pchk (s : State) (ifFull ifRoom : State) : Result :=
  if s.stepping = .a ∧ s.openP then .fault .spscViolation
  else .next (if s.fullP .tx then ifFull else ifRoom)

/-- CCHK of a port on `RX` (40_ring.md R131): `fault SpscViolation` when port A makes it while `F.open_c` holds
(60_exceptions.md R230 (b)), else one of the two continuations. -/
def State.cchk (s : State) (ifEmpty ifData : State) : Result :=
  if s.stepping = .a ∧ s.openC then .fault .spscViolation
  else .next (if s.emptyC .rx then ifEmpty else ifData)

/-! ### The escape filter (43_filter.md R191) -/

/-- The three results of the filter (43_filter.md R192). -/
inductive FilterResult where
  /-- NONE: the marker was swallowed. -/
  | none
  /-- `LIT c`: transmit `c` unchanged. -/
  | lit (c : Byte)
  /-- CANCEL: the cancellation signal was raised. -/
  | cancel
deriving DecidableEq, Repr

/-- Raising the cancellation signal: `CANCEL_PEND <- 1; emit_cancel()` (43_filter.md R198). -/
def State.raiseCancel (s : State) : State :=
  { s with cancelPend := true, cancelCount := s.cancelCount + 1 }

/-- `Filter(c)` (43_filter.md R191). -/
def State.filter (s : State) (c : Byte) : FilterResult × State :=
  if s.escf then
    if c = s.cfg.cancelChar then (.cancel, { s with escf := false }.raiseCancel)
    else (.lit c, { s with escf := false })
  else if c = s.cfg.escChar then (.none, { s with escf := true })
  else (.lit c, s)

/-! ### Entering and leaving interrupt context (60_exceptions.md R248, R250) -/

/-- `A_ENTER`: `insvc <- A`, nothing saved, the mask unchanged (60_exceptions.md R248). -/
def State.sessionEnter (s : State) : State :=
  { s with insvc := .a }

/-- `A_LEAVE`: `insvc <- NONE`, nothing restored (60_exceptions.md R250). -/
def State.sessionLeave (s : State) : State :=
  { s with insvc := .none }

/-- An illegal word, accepted and executed in one micro-step that answers 0x0200 (30_encoding.md R97). -/
def execIllegal (s : State) : Result :=
  single s (s.respond rspIllegal)

end Sys2Proof.Machine
end

