-- ==== Sys2Proof/Machine/Sync.lean ====
section
/-! DEFINITION. PTRR (41_sync.md R164) and the synchroniser step (41_sync.md R158). -/

namespace Sys2Proof.Machine

/-- PTRR: answers the selected processor-side pointer or view (41_sync.md R164). -/
def execPtrr (sel : BitVec 3) (s : State) : Result :=
  single s (s.respond (rspData (s.ptrrValue sel)))

/-- The register of the view that `SYN(b.p)` writes: `head_c` for `head`, `tail_p` for `tail` (41_sync.md R152). -/
def Ring.viewReg (r : Ring) : PtrSel → Nat
  | .head => r.headC
  | .tail => r.tailP

/-- The pointer that `SYN(b.p)` carries (41_sync.md R152). -/
def Ring.pointer (r : Ring) : PtrSel → Nat
  | .head => r.head
  | .tail => r.tail

/-- Write the register of a view. -/
def Ring.setViewReg (r : Ring) (p : PtrSel) (v : Nat) : Ring :=
  match p with
  | .head => { r with headC := v }
  | .tail => { r with tailP := v }

/-- How far the view is behind its pointer. -/
def State.lag (s : State) (b : RingId) (p : PtrSel) : Nat :=
  distN (s.cap b) ((s.ring b).viewReg p) ((s.ring b).pointer p)

/-- The synchroniser's step: `v <- (v + k) mod N` (41_sync.md R158). -/
def State.synStep (s : State) (b : RingId) (p : PtrSel) (k : Nat) : State :=
  s.setRing b ((s.ring b).setViewReg p (((s.ring b).viewReg p + k) % s.cap b))

end Sys2Proof.Machine
end

