-- ==== Sys2Proof/Machine/Agents.lean ====
section
/-! DEFINITION. The agents that are not commands (60_exceptions.md R232 to R250): when every step of R247 is enabled,
and what `RXP`, `TXC` and the quirk step do. -/

namespace Sys2Proof.Machine

/-- No session is open and the mask is 0: what every interrupt-context step needs (60_exceptions.md R247). -/
def State.interruptible (s : State) : Bool :=
  s.insvc == .none && !s.ctrl.imask

/-- The enable a quirk step clears is 1 now. -/
def Ctrl.enableBit (c : Ctrl) : Enable → Bool
  | .rxie => c.rxie
  | .txie => c.txie

/-- The enabling conditions of every step (60_exceptions.md R247); for a synchroniser also that `k` is admissible
(41_sync.md R158), for a quirk that the bit it clears is 1 (60_exceptions.md R241). -/
def State.enabled (s : State) : Event → Bool
  | .accept x _ => s.cmdReady x
  | .micro x => s.stepping == x && (s.port x).busy
  | .aEnter => s.interruptible
  | .aLeave => s.insvc == .a && !s.a.busy
  | .rxp _ => s.interruptible && s.ctrl.rxie
  | .txc => s.interruptible && s.ctrl.txie && (!s.emptyC .tx || s.cfg.txAutostop)
  | .syn b p k => s.cfg.sync.lagged && (s.ring b).viewReg p != (s.ring b).pointer p
      && decide (1 ≤ k) && decide (k ≤ s.lag b p)
  | .quirk e => s.cfg.quirkClears && s.ctrl.enableBit e

/-- `RXP` with byte `v` (60_exceptions.md R236): re-assert `RXIE` (R240), then `push_atomic(RX, v)`, its result ignored;
the byte joins the receive wire trace (10_state.md R23). -/
def State.rxpStep (s : State) (v : Byte) : Result :=
  let s1 := { s with ctrl := { s.ctrl with rxie := true }, rxTrace := s.rxTrace ++ [v] }
  onOk (s1.pushAtomic .rx v) fun r => .next r.2

/-- `TXC` (60_exceptions.md R238): re-assert `TXIE` (R240), then stop if the ring is empty, else pop and send. -/
def State.txcStep (s : State) : Result :=
  let s1 := { s with ctrl := { s.ctrl with txie := true } }
  onOk (s1.popAtomic .tx) fun r =>
    match r with
    | (some t, s2) => .next { s2 with txTrace := s2.txTrace ++ [t] }
    | (none, s2) => .next { s2 with ctrl := { s2.ctrl with txie := false } }

/-- The quirk step clears one enable (60_exceptions.md R241). -/
def State.quirkStep (s : State) : Enable → State
  | .rxie => { s with ctrl := { s.ctrl with rxie := false } }
  | .txie => { s with ctrl := { s.ctrl with txie := false } }

end Sys2Proof.Machine
end

