-- ==== Sys2Proof/Machine/Channel.lean ====
section
/-! DEFINITION. The non-blocking channel: RD (42_channel.md R171) and WR (42_channel.md R174). -/

namespace Sys2Proof.Machine

/-- RD (42_channel.md R171): u0 ENTER, u1 CCHK, u2 CLOD, u3 CREL, u4 EXIT with the byte, u5 EXIT with "no data". -/
def execRd (s : State) : Result :=
  match s.cur.upc.toNat with
  | 0 => .next (s.enter.goto 1)
  | 1 => s.cchk (s.goto 5) (s.goto 2)
  | 2 => s.loadT .rx 3
  | 3 => .next ((s.crel .rx).goto 4)
  | 4 => .next (s.exit.respond (rspData s.cur.t))
  | 5 => .next (s.exit.respond rspNone)
  | _ => undefinedStep

/-- XLAT, u0 of WR: a line feed with translation on becomes a carriage return with a line feed to follow
(42_channel.md R174, R176). -/
def State.xlat (s : State) (d : Byte) : State :=
  if d = charLf ∧ s.ctrl.crlf then s.setCur { s.cur with c := charCr, lf := true }
  else s.setCur { s.cur with c := d, lf := false }

/-- FILT, u1 of WR: the filter on the byte in hand; only a literal goes on to the push (42_channel.md R174). -/
def State.filt (s : State) : State :=
  match s.filter s.cur.c with
  | (.lit _, s') => s'.goto 2
  | (.none, s') => s'.goto 9
  | (.cancel, s') => s'.goto 9

/-- NEXT, u9 of WR: the line feed still to be written, or the answer (42_channel.md R174). -/
def State.nextByte (s : State) : State :=
  if s.cur.lf then (s.setCur { s.cur with c := charLf, lf := false }).goto 1
  else s.respond rspNone

/-- WR (42_channel.md R174): u0 XLAT, u1 FILT, u2 ENTER, u3 PCHK, u4 PSTO, u5 PPUB, u6 EXIT (pushed), u7 EXIT
(dropped), u8 KICK, u9 NEXT. -/
def execWr (d : Byte) (s : State) : Result :=
  match s.cur.upc.toNat with
  | 0 => .next ((s.xlat d).goto 1)
  | 1 => .next s.filt
  | 2 => .next (s.enter.goto 3)
  | 3 => s.pchk (s.goto 7) (s.goto 4)
  | 4 => s.storeThen .tx s.cur.c 5
  | 5 => .next ((s.ppub .tx).goto 6)
  | 6 => .next (s.exit.goto 8)
  | 7 => .next (s.exit.goto 9)
  | 8 => .next (s.kick.goto 9)
  | 9 => .next s.nextByte
  | _ => undefinedStep

end Sys2Proof.Machine
end

