-- ==== Sys2Proof/Machine/Control.lean ====
section
/-! DEFINITION. The control and status commands NOP, CTLR, CTLS, CTLC, STAT (44_control.md R209 to R214), each one
atomic micro-step (R205). -/

namespace Sys2Proof.Machine

/-- NOP (44_control.md R209). -/
def execNop (s : State) : Result :=
  single s (s.respond rspNone)

/-- CTLR: answers `0x0100 | CTRL` (44_control.md R210). -/
def execCtlr (s : State) : Result :=
  single s (s.respond (rspData s.ctrl.toByte))

/-- CTLS: `CTRL <- CTRL | (d & 0x0F)`, answers the old value (44_control.md R211). -/
def execCtls (d : Byte) (s : State) : Result :=
  single s ({ s with ctrl := s.ctrl.setBits d }.respond (rspData s.ctrl.toByte))

/-- CTLC: `CTRL <- CTRL & ~(d & 0x0F)`, answers the old value (44_control.md R212). -/
def execCtlc (d : Byte) (s : State) : Result :=
  single s ({ s with ctrl := s.ctrl.clearBits d }.respond (rspData s.ctrl.toByte))

/-- STAT: answers `0x0100 | STATUS` (44_control.md R214). -/
def execStat (s : State) : Result :=
  single s (s.respond (rspData s.status))

end Sys2Proof.Machine
end

