-- ==== Sys2Proof/Machine/Filter.lean ====
section
/-! DEFINITION. The commands of the escape filter and the cancellation flag: FSTEP and CACK (43_filter.md R196, R200). -/

namespace Sys2Proof.Machine

/-- The response of FSTEP to each result of the filter (43_filter.md R196). -/
def fstepRsp : FilterResult → Word
  | .lit c => rspData c
  | .none => rspNone
  | .cancel => rspCancel

/-- FSTEP: the filter applied to one character, nothing pushed (43_filter.md R196). -/
def execFstep (d : Byte) (s : State) : Result :=
  single s ((s.filter d).2.respond (fstepRsp (s.filter d).1))

/-- CACK: read and clear `CANCEL_PEND` in one step (43_filter.md R200). -/
def execCack (s : State) : Result :=
  single s ({ s with cancelPend := false }.respond (rspBool s.cancelPend))

end Sys2Proof.Machine
end

