-- ==== Sys2Proof/Machine/RawRing.lean ====
section
/-! DEFINITION. The raw ring commands TXPUSH, RXPOP, RXEMPTY, TXFULL (40_ring.md R135 to R140): no filter, no
translation, no bracket, no kick. -/

namespace Sys2Proof.Machine

/-- TXPUSH (40_ring.md R135): u0 PCHK, u1 PSTO, u2 PPUB. -/
def execTxpush (d : Byte) (s : State) : Result :=
  match s.cur.upc.toNat with
  | 0 => s.pchk (s.respond rspNone) (s.goto 1)
  | 1 => s.storeThen .tx d 2
  | 2 => .next ((s.ppub .tx).respond (rspBool true))
  | _ => undefinedStep

/-- RXPOP (40_ring.md R137): u0 CCHK, u1 CLOD, u2 CREL. -/
def execRxpop (s : State) : Result :=
  match s.cur.upc.toNat with
  | 0 => s.cchk (s.respond rspNone) (s.goto 1)
  | 1 => s.loadT .rx 2
  | 2 => .next ((s.crel .rx).respond (rspData s.cur.t))
  | _ => undefinedStep

/-- RXEMPTY (40_ring.md R139): writes nothing, so it is never a violation. -/
def execRxempty (s : State) : Result :=
  single s (s.respond (rspBool (s.emptyC .rx)))

/-- TXFULL (40_ring.md R140). -/
def execTxfull (s : State) : Result :=
  single s (s.respond (rspBool (s.fullP .tx)))

end Sys2Proof.Machine
end

