-- ==== Sys2Proof/Machine/Dispatch.lean ====
section
/-! DEFINITION. The meaning of each command: one micro-step of it, the one of index `upc`, on the port that may step
(10_state.md R28; log 16). -/

namespace Sys2Proof.Machine

def exec (i : Instr) (s : State) : Host.Outcome State Fault Refusal :=
  match i with
  | .nop => Sys2Proof.Machine.execNop s
  | .rd => Sys2Proof.Machine.execRd s
  | .wr d => Sys2Proof.Machine.execWr d s
  | .rxpop => Sys2Proof.Machine.execRxpop s
  | .txpush d => Sys2Proof.Machine.execTxpush d s
  | .rxempty => Sys2Proof.Machine.execRxempty s
  | .txfull => Sys2Proof.Machine.execTxfull s
  | .fstep d => Sys2Proof.Machine.execFstep d s
  | .ctlr => Sys2Proof.Machine.execCtlr s
  | .ctls d => Sys2Proof.Machine.execCtls d s
  | .ctlc d => Sys2Proof.Machine.execCtlc d s
  | .stat => Sys2Proof.Machine.execStat s
  | .cack => Sys2Proof.Machine.execCack s
  | .ptrr sel => Sys2Proof.Machine.execPtrr sel s

end Sys2Proof.Machine
end

