-- ==== Sys2Proof/Machine/Fetch.lean ====
section
/-! DEFINITION. Which step comes next (00_scope.md R17; log 1, 2, 3), what each step of 60_exceptions.md R247 does, and
how a word is put where the next step finds it (log 15). -/

namespace Sys2Proof.Machine

/-- The micro-step `X.upc` of `X.cmd` on the port that may step (10_state.md R28); an illegal word is executed too
(30_encoding.md R97). -/
def State.runMicro (s : State) : Result :=
  match decode s.cur.cmd with
  | .ok i => exec i s
  | .error _ => execIllegal s

/-- The effect column of 60_exceptions.md R247. -/
def State.perform (s : State) : Event → Result
  | .accept x w => .next (s.acceptWord x w)
  | .micro _ => s.runMicro
  | .aEnter => .next s.sessionEnter
  | .aLeave => .next s.sessionLeave
  | .rxp v => s.rxpStep v
  | .txc => s.txcStep
  | .syn b p k => .next (s.synStep b p k)
  | .quirk e => .next (s.quirkStep e)

/-- The step chosen next: the script's, or, when the script is empty, the micro-step of a port in the middle of a
command (log 3). -/
def State.nextEvent (s : State) : Option Event :=
  match s.script with
  | e :: _ => some e
  | [] => if s.cur.busy then some (.micro s.stepping) else none

/-- The choice has been read. -/
def State.popScript (s : State) : State :=
  { s with script := s.script.tail }

/-- Take a step if it is enabled. "A step not enabled cannot be taken" (60_exceptions.md R247): then nothing happens
(log 2). -/
def State.take (s : State) (e : Event) : Result :=
  if s.enabled e then s.perform e else .next s

/-- One choice of the environment and the scheduler, taken. With none left and no command in flight the block waits
(10_state.md R52). -/
def State.advance (s : State) : Result :=
  match s.nextEvent with
  | some e => s.popScript.take e
  | none => .next s

/-- Put a word in the latches of the port that may step, as its acceptance would (10_state.md R30), and choose that
port's micro-step next (log 15). -/
def State.placeWord (s : State) (w : Word) : State :=
  { s.acceptWord s.stepping w with script := .micro s.stepping :: s.script }

end Sys2Proof.Machine
end

