-- ==== Sys2Proof/Machine/Step.lean ====
section
/-! DEFINITION. One step of RBC, and the host's way to place a word. -/

namespace Sys2Proof.Machine

/-- One step (00_scope.md R17). A block outside the constraints of its parameters is refused (93 U12; log 5). -/
def step (s : State) : Host.Outcome State Fault Refusal :=
  if s.cfg.wf then s.advance else .refused .illFormedConfig

/-- The command word `w` placed where the very next step runs it (log 15). -/
def State.withFetchWord (s : State) (_nbits w : Nat) : State :=
  s.placeWord (BitVec.ofNat 16 w)

end Sys2Proof.Machine
end

