-- ==== Sys2Proof/Safety.lean ====
section
/-! DEFINITION. The terms statements are made of: what a ring holds, where in its micro-program a port stands, the
invariant of runs without a fault (10_state.md R49, R43; 41_sync.md R159), a command run to its end with nothing
between its micro-steps, the responses a command may give (30_encoding.md R95), the quiescent states
(70_reset_and_hazards.md R288), executions and fairness (R286). -/

namespace Sys2Proof.Machine

/-! ### What a ring holds -/

/-- The bytes in a ring, oldest first (40_ring.md R120). -/
def Ring.contents (n : Nat) (r : Ring) : List Byte :=
  (List.range (distN n r.tail r.head)).filterMap fun k => Memory.read r.storage ((r.tail + k) % n)

/-- The bytes in ring `b`, oldest first (40_ring.md R120). -/
def State.contents (s : State) (b : RingId) : List Byte :=
  (s.ring b).contents (s.cap b)

/-! ### Where a port stands -/

/-- The port that is not `x`. -/
def Port.other : Port → Port
  | .f => .a
  | .a => .f

/-- The largest micro-step index of a command's micro-program (42_channel.md R171, R174; 40_ring.md R135, R137). -/
def lastIndex : Instr → Nat
  | .rd => 5
  | .wr _ => 9
  | .rxpop => 2
  | .txpush _ => 2
  | .nop => 0
  | .rxempty => 0
  | .txfull => 0
  | .fstep _ => 0
  | .ctlr => 0
  | .ctls _ => 0
  | .ctlc _ => 0
  | .stat => 0
  | .cack => 0
  | .ptrr _ => 0

/-- Past the full check and not past the publish (40_ring.md R128). -/
def pushing : Instr → Nat → Bool
  | .txpush _, k => k == 1 || k == 2
  | .wr _, k => k == 4 || k == 5
  | _, _ => false

/-- Past the empty check and not past the release (40_ring.md R131). -/
def popping : Instr → Nat → Bool
  | .rxpop, k => k == 1 || k == 2
  | .rd, k => k == 2 || k == 3
  | _, _ => false

/-- At the release, the byte loaded (40_ring.md R131). -/
def releasing : Instr → Nat → Bool
  | .rxpop, k => k == 2
  | .rd, k => k == 3
  | _, _ => false

/-- At the filter step (43_filter.md R190). -/
def filtering : Instr → Nat → Bool
  | .fstep _, k => k == 0
  | .wr _, k => k == 1
  | _, _ => false

/-- After an ENTER and not past its EXIT (42_channel.md R171, R172, R174). -/
def bracketed : Instr → Nat → Bool
  | .rd, k => 1 ≤ k && k ≤ 5
  | .wr _, k => 3 ≤ k && k ≤ 7
  | _, _ => false

/-- The byte a command at its publish has stored (40_ring.md R135, 42_channel.md R174). -/
def publishes (c : Byte) : Instr → Nat → Option Byte
  | .txpush d, k => if k = 2 then some d else none
  | .wr _, k => if k = 5 then some c else none
  | _, _ => none

/-- The command port `x` is executing, if it is executing a legal one. -/
def State.running (s : State) (x : Port) : Option Instr :=
  if (s.port x).busy then
    match decode (s.port x).cmd with
    | .ok i => some i
    | .error _ => none
  else none

/-- Port `x` is executing a command and stands where `p` says. -/
def State.stands (s : State) (x : Port) (p : Instr → Nat → Bool) : Bool :=
  match s.running x with
  | some i => p i (s.port x).upc.toNat
  | none => false

/-- The byte port `x` is about to publish, if it is at its publish. -/
def State.publishByte (s : State) (x : Port) : Option Byte :=
  match s.running x with
  | some i => publishes (s.port x).c i (s.port x).upc.toNat
  | none => none

/-- The largest index of the micro-program port `x` is executing; an illegal word has u0 alone (30_encoding.md R97). -/
def State.lastStep (s : State) (x : Port) : Nat :=
  match decode (s.port x).cmd with
  | .ok i => lastIndex i
  | .error _ => 0

/-! ### The invariant of runs without a fault -/

/-- What holds of ring `b` at every state a run without a fault reaches. -/
structure RingInv (s : State) (b : RingId) : Prop where
  /-- 10_state.md R49. -/
  head_lt : (s.ring b).head < s.cap b
  /-- 10_state.md R49. -/
  tail_lt : (s.ring b).tail < s.cap b
  /-- 10_state.md R49. -/
  headC_lt : (s.ring b).headC < s.cap b
  /-- 10_state.md R49. -/
  tailP_lt : (s.ring b).tailP < s.cap b
  /-- The storage is in its one canonical form. -/
  storage_wf : Memory.wf (s.ring b).storage
  /-- Only slots that exist are listed (10_state.md R42). -/
  storage_lt : ∀ c ∈ (s.ring b).storage, c.1 < s.cap b
  /-- The four pointers in order, within one lap (41_sync.md R159). -/
  ordered : distN (s.cap b) (s.tailView b) (s.ring b).tail + distN (s.cap b) (s.ring b).tail (s.headView b)
    + distN (s.cap b) (s.headView b) (s.ring b).head = distN (s.cap b) (s.tailView b) (s.ring b).head
  /-- Every occupied slot has been written (10_state.md R43). -/
  written : ∀ k < s.occ b, (Memory.read (s.ring b).storage (((s.ring b).tail + k) % s.cap b)).isSome = true

/-- What holds of port `x` at every state a run without a fault reaches. -/
structure PortInv (s : State) (x : Port) : Prop where
  /-- 10_state.md R49. -/
  upc_le : (s.port x).upc.toNat ≤ 9
  /-- No micro-program reaches an index it does not define (10_state.md R28). -/
  index_le : (s.port x).busy = true → (s.port x).upc.toNat ≤ s.lastStep x
  /-- A push under way has room (41_sync.md R160). -/
  push_room : s.stands x pushing = true → s.fullP .tx = false
  /-- A pop under way has a byte (41_sync.md R160). -/
  pop_data : s.stands x popping = true → s.emptyC .rx = false
  /-- At its publish the byte stands in the slot (20_memory.md R72). -/
  stored : ∀ v, s.publishByte x = some v → Memory.read s.tx.storage s.tx.head = some v
  /-- At its release the byte loaded is the slot's (20_memory.md R73). -/
  loaded : s.stands x releasing = true → Memory.read s.rx.storage s.rx.tail = some (s.port x).t

/-- What holds at every state a run without a fault reaches (10_state.md R43, R49; 41_sync.md R159; 42_channel.md R173). -/
structure Inv (s : State) : Prop where
  /-- The parameters meet their constraints (00_scope.md R8, R10, R13). -/
  cfg_wf : s.cfg.wf = true
  rx_ok : RingInv s .rx
  tx_ok : RingInv s .tx
  f_ok : PortInv s .f
  a_ok : PortInv s .a
  /-- A session never ends inside a command (60_exceptions.md R250). -/
  session : s.a.busy = true → s.insvc = .a
  /-- Inside a bracket of port F the mask is set and no session is open (42_channel.md R173). -/
  bracket : s.stands .f bracketed = true → s.ctrl.imask = true ∧ s.insvc = .none
  /-- One user of the producer end of `TX` at a time (60_exceptions.md R230). -/
  one_pusher : ¬(s.stands .f pushing = true ∧ s.stands .a pushing = true)
  /-- One user of the consumer end of `RX` at a time (60_exceptions.md R230). -/
  one_popper : ¬(s.stands .f popping = true ∧ s.stands .a popping = true)

/-! ### A command run to its end -/

/-- Micro-steps of the command `i` on the port that may step, nothing between them, until it has answered, at most `k`
of them. -/
def runCommand (i : Instr) : Nat → State → Host.Outcome State Fault Refusal
  | 0, s => .next s
  | k + 1, s =>
    if s.cur.busy then
      match exec i s with
      | .next s' => runCommand i k s'
      | .fault e => .fault e
      | .refused r => .refused r
    else .next s

/-- How many micro-steps `runCommand` takes, of at most `k`. -/
def countSteps (i : Instr) : Nat → State → Nat
  | 0, _ => 0
  | k + 1, s =>
    if s.cur.busy then
      match exec i s with
      | .next s' => countSteps i k s' + 1
      | .fault _ => 0
      | .refused _ => 0
    else 0

/-- The most micro-steps a command still takes at index `k`; `lf` is `X.lf`, a line feed still to be written (40_ring.md
R135, R137; 42_channel.md R171, R175). -/
def stepsLeft (lf : Bool) : Instr → Nat → Nat
  | .rd, k => if k = 0 then 5 else if k ≤ 3 then 5 - k else if k ≤ 5 then 1 else 0
  | .wr d, k =>
    if k = 0 then (if d = charLf then 17 else 9)
    else (if k ≤ 6 then 9 - k else if k ≤ 8 then 2 else if k = 9 then 1 else 0) + (if lf then 8 else 0)
  | i, k => lastIndex i + 1 - k

/-- The most micro-steps the word port `x` is executing still takes; an illegal word has u0 alone (30_encoding.md R97). -/
def State.stepsLeft (s : State) (x : Port) : Nat :=
  match decode (s.port x).cmd with
  | .ok i => Machine.stepsLeft (s.port x).lf i (s.port x).upc.toNat
  | .error _ => 1 - (s.port x).upc.toNat

/-- Running `i` on port A meets a ring end that port F has open (60_exceptions.md R230). -/
def State.meetsOpenEnd (s : State) : Instr → Prop
  | .txpush _ => s.stepping = .a ∧ s.openP = true
  | .wr _ => s.stepping = .a ∧ s.openP = true
  | .rxpop => s.stepping = .a ∧ s.openC = true
  | .rd => s.stepping = .a ∧ s.openC = true
  | _ => False

/-- Push `c` onto `TX` if the producer sees room, and then resume transmission; else drop it (42_channel.md R178,
R180), as one atomic function. -/
def State.pushOrDrop (s : State) (c : Byte) : State :=
  if incN s.cfg.nTx s.tx.head = s.tailView .tx then s
  else
    { s with
      tx := { s.tx with storage := Memory.write s.tx.storage s.tx.head c, head := incN s.cfg.nTx s.tx.head }
      ctrl := { s.ctrl with txie := true } }

/-- One byte written through the channel, filter first, as one atomic function (42_channel.md R174, 43_filter.md R191). -/
def State.writeByte (s : State) (c : Byte) : State :=
  if s.escf then
    if c = s.cfg.cancelChar then { s with escf := false, cancelPend := true, cancelCount := s.cancelCount + 1 }
    else { s with escf := false }.pushOrDrop c
  else if c = s.cfg.escChar then { s with escf := true }
  else s.pushOrDrop c

/-- The micro-steps of a WR for one byte (42_channel.md R175): 2 when the filter does not pass it, 5 when it is dropped, 8
when it is pushed. -/
def State.writeCost (s : State) (c : Byte) : Nat :=
  if (if s.escf then c = s.cfg.cancelChar else c = s.cfg.escChar) then 2
  else if incN s.cfg.nTx s.tx.head = s.tailView .tx then 5
  else 8

/-- What a WR writes: a line feed with translation on is a carriage return and then the line feed (42_channel.md R176,
R177). -/
def State.writeChar (s : State) (d : Byte) : State :=
  if d = 0x0A ∧ s.ctrl.crlf then (s.writeByte 0x0D).writeByte 0x0A else s.writeByte d

/-! ### Responses (30_encoding.md R95) -/

/-- The responses the table of 30_encoding.md R95 allows a command that answers in state `s`. -/
def allowedRsp (s : State) : Instr → Word → Prop
  | .nop, w => w = 0x0000
  | .rd, w => w = 0x0000 ∨ ∃ b : Byte, w = 0x0100 ||| b.setWidth 16
  | .rxpop, w => w = 0x0000 ∨ ∃ b : Byte, w = 0x0100 ||| b.setWidth 16
  | .wr _, w => w = 0x0000
  | .txpush _, w => w = 0x0000 ∨ w = 0x0100
  | .rxempty, w => w = if s.emptyC .rx then 0x0100 else 0x0000
  | .txfull, w => w = if s.fullP .tx then 0x0100 else 0x0000
  | .fstep d, w => w = 0x0100 ||| d.setWidth 16 ∨ w = 0x0000 ∨ w = 0x0400
  | .ctlr, w => w = 0x0100 ||| s.ctrl.toByte.setWidth 16
  | .ctls _, w => w = 0x0100 ||| s.ctrl.toByte.setWidth 16
  | .ctlc _, w => w = 0x0100 ||| s.ctrl.toByte.setWidth 16
  | .stat, w => w = 0x0100 ||| s.status.setWidth 16
  | .cack, w => w = if s.cancelPend then 0x0100 else 0x0000
  | .ptrr sel, w => w = 0x0100 ||| (s.ptrrValue sel).setWidth 16

/-! ### The end of a run (70_reset_and_hazards.md R288) -/

/-- A view has caught up with its pointer. -/
def State.caughtUp (s : State) (b : RingId) : Bool :=
  s.headView b == (s.ring b).head && s.tailView b == (s.ring b).tail

/-- No word left to present and no byte left to deliver. -/
def Event.isInput : Event → Bool
  | .accept _ _ => true
  | .rxp _ => true
  | .micro _ => false
  | .aEnter => false
  | .aLeave => false
  | .txc => false
  | .syn _ _ _ => false
  | .quirk _ => false

/-- The quiescent states (70_reset_and_hazards.md R288). -/
def State.quiescent (s : State) : Bool :=
  !s.f.busy && !s.a.busy && s.insvc == .none && !s.script.any Event.isInput
    && s.caughtUp .rx && s.caughtUp .tx && !s.enabled .txc

/-! ### Executions and fairness (70_reset_and_hazards.md R286) -/

/-- An execution: state `n`, and the step taken from it, `none` where nothing happens (00_scope.md R17, 10_state.md R52).
It is endless in form; one that stops is followed by `none` for ever. It may start anywhere, so a part of an
execution from some state on is one too. -/
def Execution (run : Nat → State) (ev : Nat → Option Event) : Prop :=
  ∀ n, match ev n with
    | none => run (n + 1) = run n
    | some e => (run n).enabled e = true ∧ step { run n with script := [e] } = .next (run (n + 1))

/-- The four clauses of fairness, "stays enabled" taken word for word (70_reset_and_hazards.md R286; log 23). -/
structure Fair (run : Nat → State) (ev : Nat → Option Event) : Prop where
  /-- (a) A synchroniser step that stays enabled is eventually taken; it is enabled when `k = 1` is admissible. -/
  syn : ∀ b p n, (∀ m ≥ n, (run m).enabled (.syn b p 1) = true) → ∃ m ≥ n, ∃ k, ev m = some (.syn b p k)
  /-- (b) A port with `busy = 1` that may step eventually steps. -/
  port : ∀ x n, (run n).enabled (.micro x) = true → ∃ m ≥ n, ev m = some (.micro x)
  /-- (c) An open session is eventually closed. -/
  session : ∀ n, (run n).insvc = .a → ∃ m ≥ n, ev m = some .aLeave
  /-- (d) A `TXC` step that stays enabled is eventually taken. -/
  txc : ∀ n, (∀ m ≥ n, (run m).enabled .txc = true) → ∃ m ≥ n, ev m = some .txc

/-- A `TXC` step that is enabled again and again is eventually taken: (d) for executions in which sessions keep
interrupting `TXC` (log 23). -/
def TxcAcrossSessions (run : Nat → State) (ev : Nat → Option Event) : Prop :=
  ∀ n, (∀ m ≥ n, ∃ j ≥ m, (run j).enabled .txc = true) → ∃ m ≥ n, ev m = some .txc

/-- By state `m` all that `TX` held at state `n` has gone out on the wire, in order. -/
def sentBy (run : Nat → State) (n m : Nat) : Prop :=
  (run n).txTrace ++ (run n).contents .tx <+: (run m).txTrace

/-- The bytes the releases of `RX` returned in the `k` steps from state `n` on, in order (40_ring.md R131, R133). -/
def takenFrom (run : Nat → State) (n : Nat) : Nat → List Byte
  | 0 => []
  | k + 1 =>
    takenFrom run n k ++ if (run (n + k)).rx.tail = (run (n + k + 1)).rx.tail then [] else [(run (n + k)).cur.t]

/-- The bytes of ring `b` its consumer sees, oldest first: those before its view of `head` (40_ring.md R123). -/
def State.visible (s : State) (b : RingId) : List Byte :=
  (s.contents b).take (distN (s.cap b) (s.ring b).tail (s.headView b))

end Sys2Proof.Machine
end

