-- ==== Sys2Proof/Certificates/Slice0/Obligations.lean ====
section
/-! DEFINITION. The statements for the provers, each naming the rules of spec/ it formalises. A statement about `exec`
is about one micro-step, the one of index `upc` on the port that may step (10_state.md R28). -/

open Sys2Proof Sys2Proof.Machine

/-! ### Encoding -/

/-- 30_encoding.md R90 to R93: every command is read back from its own word. -/
def Obligations.EncodeThenDecode : Prop :=
  ∀ i : Instr, i.wf = true → decode (encode i) = .ok i

/-- 30_encoding.md R92, R93: a word read as a command is that command's own word, so no two words are one command. -/
def Obligations.DecodeThenEncode : Prop :=
  ∀ (w : Word) (i : Instr), decode w = .ok i → encode i = w

/-- 30_encoding.md R92: the opcode map, row by row: a word is the row's command exactly when `(w & mask) = match`; a word
decodes to at most one command, so the rows are disjoint. -/
def Obligations.MatchAndMaskDecideTheRow : Prop :=
  ∀ w : Word,
    (w &&& 0xFFFF = 0x0000 ↔ decode w = .ok .nop) ∧
    (w &&& 0xFFFF = 0x1000 ↔ decode w = .ok .rd) ∧
    (w &&& 0xFF00 = 0x2000 ↔ ∃ d : Byte, decode w = .ok (.wr d)) ∧
    (w &&& 0xFFFF = 0x3000 ↔ decode w = .ok .rxpop) ∧
    (w &&& 0xFF00 = 0x4000 ↔ ∃ d : Byte, decode w = .ok (.txpush d)) ∧
    (w &&& 0xFFFF = 0x5000 ↔ decode w = .ok .rxempty) ∧
    (w &&& 0xFFFF = 0x6000 ↔ decode w = .ok .txfull) ∧
    (w &&& 0xFF00 = 0x7000 ↔ ∃ d : Byte, decode w = .ok (.fstep d)) ∧
    (w &&& 0xFFFF = 0x8000 ↔ decode w = .ok .ctlr) ∧
    (w &&& 0xFF00 = 0x9000 ↔ ∃ d : Byte, decode w = .ok (.ctls d)) ∧
    (w &&& 0xFF00 = 0xA000 ↔ ∃ d : Byte, decode w = .ok (.ctlc d)) ∧
    (w &&& 0xFFFF = 0xB000 ↔ decode w = .ok .stat) ∧
    (w &&& 0xFFFF = 0xC000 ↔ decode w = .ok .cack) ∧
    (w &&& 0xFFF8 = 0xD000 ↔ ∃ k : BitVec 3, decode w = .ok (.ptrr k))

/-- 30_encoding.md R97 with R91: the illegal words, exactly; each is accepted like any other and answered 0x0200 in one
micro-step that changes nothing but the port's `busy` and `rsp` (and the trace of responses). -/
def Obligations.IllegalWordsAnswer0200 : Prop :=
  (∀ w : Word, (∃ e, decode w = .error e) ↔
    (14 ≤ (w >>> 12).toNat ∨ w &&& 0x0F00 ≠ 0
      ∨ ((w >>> 12).toNat ∈ [0x0, 0x1, 0x3, 0x5, 0x6, 0x8, 0xB, 0xC] ∧ w &&& 0x00FF ≠ 0)
      ∨ ((w >>> 12).toNat = 0xD ∧ w &&& 0x00F8 ≠ 0))) ∧
  (∀ (s : State) (x : Port) (w : Word) (rest : List Event),
    s.cfg.wf = true → s.script = .accept x w :: rest → s.stepping = x → (s.port x).busy = false →
    step s = .next ({ s with script := rest }.setPort x { s.port x with cmd := w, busy := true, upc := 0 })) ∧
  ∀ (s : State) (e : DecodeError) (rest : List Event),
    s.cfg.wf = true → s.script = .micro s.stepping :: rest → s.cur.busy = true → s.cur.upc = 0 →
    decode s.cur.cmd = .error e → step s = .next ({ s with script := rest }.respond 0x0200)

/-- Words written out from the encoding table of 30_encoding.md R92, one per family. -/
def Obligations.SampleWordsDecode : Prop :=
  decode 0b0000000000000000 = .ok .nop ∧ decode 0b0001000000000000 = .ok .rd ∧
  decode 0b0010000001100001 = .ok (.wr 0x61) ∧ decode 0b0100000001000001 = .ok (.txpush 0x41) ∧
  decode 0b0111000000011011 = .ok (.fstep 0x1B) ∧ decode 0b1001000000000011 = .ok (.ctls 0x03) ∧
  decode 0b1100000000000000 = .ok .cack ∧ decode 0b1101000000000110 = .ok (.ptrr 6)

/-! ### The step -/

/-- 10_state.md R28: the next micro-step of the command in `X.cmd` is `exec` of the decoded command; the step adds only
that the choice has been read. -/
def Obligations.StepRunsTheDecodedCommand : Prop :=
  ∀ (s : State) (i : Instr) (rest : List Event),
    s.cfg.wf = true → s.script = .micro s.stepping :: rest → s.cur.busy = true → decode s.cur.cmd = .ok i →
    step s = exec i { s with script := rest }

/-- The model's choices of logs 2, 3 and 5: a chosen step that is not enabled leaves the machine as it is; with no choice
left an idle block waits and a port inside a command goes on; a block outside its constraints is refused. -/
def Obligations.StepWithoutAnEnabledChoice : Prop :=
  (∀ (s : State) (e : Event) (rest : List Event),
    s.cfg.wf = true → s.script = e :: rest → ({ s with script := rest }).enabled e = false →
    step s = .next { s with script := rest }) ∧
  (∀ s : State, s.cfg.wf = true → s.script = [] → s.cur.busy = false → step s = .next s) ∧
  (∀ (s : State) (i : Instr), s.cfg.wf = true → s.script = [] → s.cur.busy = true → decode s.cur.cmd = .ok i →
    step s = exec i s) ∧
  ∀ s : State, s.cfg.wf = false → step s = .refused .illFormedConfig

/-- 10_state.md R30: acceptance writes the three latches and nothing else, on an idle port that may step; otherwise there
is no such step. That the model then drops the choice is its own (log 2). -/
def Obligations.AcceptanceWritesThreeLatches : Prop :=
  ∀ (s : State) (x : Port) (w : Word) (rest : List Event),
    s.cfg.wf = true → s.script = .accept x w :: rest →
    step s = .next (if s.stepping = x ∧ (s.port x).busy = false
      then { s with script := rest }.setPort x { s.port x with cmd := w, busy := true, upc := 0 }
      else { s with script := rest })

/-- 00_scope.md R16 `respond` and `X.upc <- k`: what they write, and that they write nothing else. -/
def Obligations.RespondAndGotoWriteOnePort : Prop :=
  ∀ (s : State) (w : Word) (k : BitVec 4),
    (s.respond w = { s.setPort s.stepping { s.port s.stepping with rsp := w, busy := false } with
      rspTrace := s.rspTrace ++ [(s.stepping, w)] }) ∧
    s.goto k = s.setPort s.stepping { s.port s.stepping with upc := k } ∧
    ∀ (x : Port) (p : PortState), (s.setPort x p).port x = p ∧ (s.setPort x p).port x.other = s.port x.other ∧
      (s.setPort x p).setPort x (s.port x) = s

/-! ### Reset -/

/-- 70_reset_and_hazards.md R266, for every configuration: every register, the rings empty, `STATUS`; with it the traces
empty (10_state.md R52) and the parameters those of the block. -/
def Obligations.ResetValues : Prop :=
  ∀ c : Config,
    (∀ b : RingId, ((State.resetWith c).ring b).head = 0 ∧ ((State.resetWith c).ring b).tail = 0 ∧
      ((State.resetWith c).ring b).headC = 0 ∧ ((State.resetWith c).ring b).tailP = 0 ∧
      (State.resetWith c).contents b = [] ∧ (State.resetWith c).occ b = 0) ∧
    (State.resetWith c).escf = false ∧ (State.resetWith c).cancelPend = false ∧
    (State.resetWith c).ctrl.toByte = 0x04 ∧ (State.resetWith c).insvc = .none ∧
    (∀ x : Port, (State.resetWith c).port x =
      { busy := false, cmd := 0, upc := 0, rsp := 0, c := 0, lf := false, t := 0 }) ∧
    (State.resetWith c).sm = false ∧ (c.wf = true → (State.resetWith c).status = 0x02) ∧
    (State.resetWith c).txTrace = [] ∧ (State.resetWith c).cancelCount = 0 ∧ (State.resetWith c).rspTrace = [] ∧
    (State.resetWith c).rxTrace = [] ∧ (State.resetWith c).cfg = c

/-- 70_reset_and_hazards.md R270, 10_state.md R52: which steps are enabled after reset, for every configuration. -/
def Obligations.ResetEnablesAcceptanceAndSession : Prop :=
  ∀ (c : Config) (e : Event),
    (State.resetWith c).enabled e = true ↔ (∃ w, e = .accept .f w) ∨ e = .aEnter

/-! ### The invariant -/

/-- The state after reset meets the invariant, for every well-formed configuration. -/
def Obligations.ResetMeetsTheInvariant : Prop :=
  ∀ c : Config, c.wf = true → Inv (State.resetWith c)

/-- 10_state.md R49, 41_sync.md R159, 42_channel.md R173: every step, in every order, keeps the invariant. -/
def Obligations.EveryStepKeepsTheInvariant : Prop :=
  ∀ s t : State, Inv s → step s = .next t → Inv t

/-- 10_state.md R28, R43, 20_memory.md R62: from a state that meets the invariant a step answers a next state or records
`SpscViolation`; it never reads an unwritten slot, leaves a storage array, or meets an undefined micro-step. -/
def Obligations.OnlyTheSpscFaultStopsARun : Prop :=
  ∀ s : State, Inv s → (∃ t, step s = .next t) ∨ step s = .fault .spscViolation

/-- 60_exceptions.md R230, 10_state.md R48: the fault is recorded exactly when port A executes u0 of TXPUSH or u3 of WR
while port F has the producer end of `TX` open, or u0 of RXPOP or u1 of RD while it has the consumer end of `RX` open. -/
def Obligations.SpscFaultExactly : Prop :=
  ∀ s : State, s.cfg.wf = true →
    (step s = .fault .spscViolation ↔
      s.nextEvent = some (.micro .a) ∧ s.insvc = .a ∧
      (((∃ d, s.running .f = some (.txpush d)) ∧ (s.f.upc = 1 ∨ s.f.upc = 2) ∧
          (((∃ d, s.running .a = some (.txpush d)) ∧ s.a.upc = 0) ∨ ((∃ d, s.running .a = some (.wr d)) ∧ s.a.upc = 3))) ∨
       (s.running .f = some .rxpop ∧ (s.f.upc = 1 ∨ s.f.upc = 2) ∧
          ((s.running .a = some .rxpop ∧ s.a.upc = 0) ∨ (s.running .a = some .rd ∧ s.a.upc = 1)))))

/-- 10_state.md R38, 60_exceptions.md R234, 20_memory.md R79: while the mask is 1 no interrupt-context step begins; with
no session open none opens, no byte enters `RX` and none leaves `TX`, whatever step is taken. -/
def Obligations.TheMaskHoldsInterruptContext : Prop :=
  ∀ s t : State, s.ctrl.imask = true → s.insvc = .none → step s = .next t →
    t.insvc = .none ∧ t.rxTrace = s.rxTrace ∧ t.txTrace = s.txTrace ∧ t.rx.head = s.rx.head ∧
    t.tx.tail = s.tx.tail ∧ t.a = s.a

/-! ### The rings are queues -/

/-- 20_memory.md R76, 40_ring.md R141: what has gone out on the wire followed by what `TX` holds only ever grows, by the
byte a publish publishes; so bytes leave in the order of their publish steps, none lost, none twice. -/
def Obligations.TransmitRingIsAQueue : Prop :=
  ∀ s t : State, Inv s → step s = .next t →
    (∃ x v, s.nextEvent = some (.micro x) ∧ s.stepping = x ∧ s.publishByte x = some v ∧
      t.txTrace ++ t.contents .tx = s.txTrace ++ s.contents .tx ++ [v]) ∨
    ((∀ x, s.nextEvent = some (.micro x) → s.stepping = x → s.publishByte x = none) ∧
      t.txTrace ++ t.contents .tx = s.txTrace ++ s.contents .tx)

/-- 20_memory.md R75, 40_ring.md R141: `RX` changes only by a received byte joining it at the new end, when the producer
sees room, or by a release taking away the oldest byte, which is the one the port has loaded. -/
def Obligations.ReceiveRingIsAQueue : Prop :=
  ∀ s t : State, Inv s → step s = .next t →
    (∃ v, s.nextEvent = some (.rxp v) ∧ s.enabled (.rxp v) = true ∧ t.rxTrace = s.rxTrace ++ [v] ∧
      t.contents .rx = if s.fullP .rx then s.contents .rx else s.contents .rx ++ [v]) ∨
    (∃ x, s.nextEvent = some (.micro x) ∧ s.stepping = x ∧ s.stands x releasing = true ∧ t.rxTrace = s.rxTrace ∧
      s.contents .rx = (s.port x).t :: t.contents .rx) ∨
    (t.rxTrace = s.rxTrace ∧ t.contents .rx = s.contents .rx)

/-- 41_sync.md R160: a view errs only toward "full" for the producer and toward "empty" for the consumer. -/
def Obligations.StaleViewsErrSafely : Prop :=
  ∀ (s : State) (b : RingId), Inv s →
    s.occ b ≤ distN (s.cap b) (s.tailView b) (s.ring b).head ∧
    distN (s.cap b) (s.ring b).tail (s.headView b) ≤ s.occ b ∧
    (s.fullP b = false → incN (s.cap b) (s.ring b).head ≠ (s.ring b).tail) ∧
    (s.emptyC b = false → (s.ring b).head ≠ (s.ring b).tail) ∧
    (s.caughtUp b = true → (s.fullP b = true ↔ s.occ b = s.cap b - 1) ∧ (s.emptyC b = true ↔ s.occ b = 0))

/-- 40_ring.md R120 to R122, R143: what a ring holds, its length, and when it is empty or full in truth. -/
def Obligations.OccupancyBounds : Prop :=
  ∀ (s : State) (b : RingId), Inv s →
    (s.contents b).length = s.occ b ∧ s.occ b ≤ s.cap b - 1 ∧
    (s.occ b = 0 ↔ (s.ring b).head = (s.ring b).tail) ∧
    (s.occ b = s.cap b - 1 ↔ incN (s.cap b) (s.ring b).head = (s.ring b).tail)

/-- 70_reset_and_hazards.md R286 in a bounded form: with the transmit source enabled, the mask off, no session and the
consumer's view caught up, as many `TXC` steps as `TX` holds bytes send exactly those bytes in order and empty the
ring. -/
def Obligations.DrainSendsTheContents : Prop :=
  ∀ (s : State) (rest : List Event), Inv s → s.insvc = .none → s.ctrl.imask = false → s.ctrl.txie = true →
    s.headView .tx = s.tx.head → s.script = List.replicate (s.occ .tx) .txc ++ rest →
    ∃ t : State, Host.Core.run core (s.occ .tx) s = .next t ∧ t.txTrace = s.txTrace ++ s.contents .tx ∧
      t.tx.tail = t.tx.head ∧ t.tx.head = s.tx.head ∧ t.script = rest ∧ t.ctrl = s.ctrl ∧ t.rx = s.rx

/-- 70_reset_and_hazards.md R286: in a fair execution all that `TX` holds is eventually transmitted, in order, if until then
`TXIE` stays 1 and `IMASK` 0, and no session is open or, with sessions, `TXC` is not passed over for ever (log 23); and
a byte whose push succeeds is the newest of what `TX` then holds. -/
def Obligations.EveryByteInTxIsTransmitted : Prop :=
  ∀ (run : Nat → State) (ev : Nat → Option Event), Inv (run 0) → Execution run ev →
    (∀ n x v, ev n = some (.micro x) → (run n).publishByte x = some v →
      (run (n + 1)).contents .tx = (run n).contents .tx ++ [v]) ∧
    (Fair run ev → ∀ n,
      (∀ m ≥ n, ¬sentBy run n m → (run m).ctrl.txie = true ∧ (run m).ctrl.imask = false) →
      ((∀ m ≥ n, ¬sentBy run n m → (run m).insvc = .none) ∨ TxcAcrossSessions run ev) →
      ∃ m ≥ n, sentBy run n m)

/-- 70_reset_and_hazards.md R286: in a fair execution every byte of `RX` is eventually returned by a pop or seen by the
consumer, in order; a byte that `RXP` pushes is the newest of what `RX` then holds; and what the consumer sees is what
the check finds and the load reads, so what RD and RXPOP answer. -/
def Obligations.EveryReceivedByteBecomesReadable : Prop :=
  (∀ (run : Nat → State) (ev : Nat → Option Event), Inv (run 0) → Execution run ev →
    (∀ n v, ev n = some (.rxp v) → (run n).fullP .rx = false →
      (run (n + 1)).contents .rx = (run n).contents .rx ++ [v]) ∧
    (Fair run ev → ∀ n, ∃ k, (run n).contents .rx <+: takenFrom run n k ++ (run (n + k)).visible .rx)) ∧
  ∀ s : State, Inv s →
    (s.emptyC .rx = true ↔ s.visible .rx = []) ∧
    ∀ v rest, s.visible .rx = v :: rest → s.memRead .rx s.rx.tail = .ok v

/-! ### Synchronisers, widths and gray code -/

/-- 41_sync.md R158: the one kind of step of a lagging synchroniser: it moves its view `k` forward, `1 <= k <= dist`,
writes nothing else and never passes the pointer; with any other `k`, or no lag, there is no step. That
the model then drops the choice is its own (log 2). -/
def Obligations.SynMovesTheViewForward : Prop :=
  ∀ (s : State) (b : RingId) (p : PtrSel) (k : Nat) (rest : List Event),
    s.cfg.wf = true → s.cfg.sync.lagged = true → s.script = .syn b p k :: rest →
    (s.ring b).viewReg p < s.cap b → (s.ring b).pointer p < s.cap b →
    (((s.ring b).viewReg p ≠ (s.ring b).pointer p ∧ 1 ≤ k ∧ k ≤ s.lag b p) →
      ∃ t : State, step s = .next t ∧
        t = { s with script := rest }.setRing b ((s.ring b).setViewReg p (((s.ring b).viewReg p + k) % s.cap b)) ∧
        (t.ring b).viewReg p < s.cap b ∧ t.lag b p = s.lag b p - k) ∧
    (¬((s.ring b).viewReg p ≠ (s.ring b).pointer p ∧ 1 ≤ k ∧ k ≤ s.lag b p) → step s = .next { s with script := rest })

/-- 41_sync.md R153: in `DIRECT` a view is the pointer, every check is exact, and no synchroniser has a step. -/
def Obligations.DirectViewsAreThePointers : Prop :=
  ∀ (s : State) (b : RingId), s.cfg.sync = .direct →
    s.headView b = (s.ring b).head ∧ s.tailView b = (s.ring b).tail ∧
    (s.emptyC b = true ↔ (s.ring b).head = (s.ring b).tail) ∧
    (s.fullP b = true ↔ incN (s.cap b) (s.ring b).head = (s.ring b).tail) ∧
    ∀ (p : PtrSel) (k : Nat), s.enabled (.syn b p k) = false

/-- 41_sync.md R155, R156: the bits of `bin2gray` and of `gray2bin`, from the top bit down (the bit above the top one reads
as 0), and that the second undoes the first, at every width. -/
def Obligations.GrayCodeIsUndone : Prop :=
  (∀ (w : Nat) (p : BitVec w) (i : Nat), i < w →
    (bin2gray p).getLsbD i = (p.getLsbD (i + 1) ^^ p.getLsbD i)) ∧
  (∀ (w : Nat) (g : BitVec w) (i : Nat), i < w →
    (gray2bin g).getLsbD i = ((gray2bin g).getLsbD (i + 1) ^^ g.getLsbD i)) ∧
  ∀ (w : Nat) (p : BitVec w), gray2bin (bin2gray p) = p

/-- 41_sync.md R157: the codes of a value and of its successor modulo `2^W` differ in exactly one bit, the wrap included;
and the codes of the three smallest widths. -/
def Obligations.GrayNeighboursDifferInOneBit : Prop :=
  (∀ (w : Nat) (p : BitVec w), 0 < w →
    ∃ i, i < w ∧ bin2gray p ^^^ bin2gray (BitVec.ofNat w (incN (2 ^ w) p.toNat)) = BitVec.twoPow w i) ∧
  (List.range 2).map (fun k => bin2gray (BitVec.ofNat 1 k)) = [0b0, 0b1] ∧
  (List.range 4).map (fun k => bin2gray (BitVec.ofNat 2 k)) = [0b00, 0b01, 0b11, 0b10] ∧
  (List.range 8).map (fun k => bin2gray (BitVec.ofNat 3 k))
    = [0b000, 0b001, 0b011, 0b010, 0b110, 0b111, 0b101, 0b100]

/-- 00_scope.md R9, R15, 40_ring.md R125, 30_encoding.md R96: the width of a pointer is the rounded-up logarithm of the
capacity, at most 8; every index fits it, so a pointer is read whole in the data byte of a response; `incN` is the
successor modulo `N`, wrapping from the last slot to slot 0, and for a power of two the low `W` bits of the sum. -/
def Obligations.PointerWidthAndIncrement : Prop :=
  (∀ n : Nat, 2 ≤ n → n ≤ 256 →
    ptrWidth n = max 1 (Nat.clog 2 n) ∧ 1 ≤ ptrWidth n ∧ ptrWidth n ≤ 8 ∧
    ∀ p, p < n → p < 2 ^ ptrWidth n ∧ (pointerByte (ptrWidth n) p).toNat = p) ∧
  ∀ n p : Nat, p < n → incN n p = (p + 1) % n ∧ incN n p < n ∧ incN n (n - 1) = 0 ∧
    ∀ w : Nat, n = 2 ^ w → BitVec.ofNat w (incN n p) = BitVec.ofNat w p + 1

/-! ### Commands of one micro-step -/

/-- 44_control.md R209, R210, R214, with 10_state.md R34, R40: NOP answers 0x0000; CTLR answers `CTRL` and STAT `STATUS`,
bit by bit; nothing is cleared by reading. -/
def Obligations.NopCtlrAndStatAnswer : Prop :=
  decode 0x0000 = .ok .nop ∧ decode 0x8000 = .ok .ctlr ∧ decode 0xB000 = .ok .stat ∧
  ∀ s : State, s.cur.upc = 0 →
    exec .nop s = .next (s.respond 0x0000) ∧
    exec .ctlr s = .next (s.respond (0x0100 ||| s.ctrl.toByte.setWidth 16)) ∧
    s.ctrl.toByte.getLsbD 0 = s.ctrl.rxie ∧ s.ctrl.toByte.getLsbD 1 = s.ctrl.txie ∧
    s.ctrl.toByte.getLsbD 2 = s.ctrl.crlf ∧ s.ctrl.toByte.getLsbD 3 = s.ctrl.imask ∧ s.ctrl.toByte &&& 0xF0 = 0 ∧
    exec .stat s = .next (s.respond (0x0100 ||| s.status.setWidth 16)) ∧
    (s.status.getLsbD 0 = true ↔ s.headView .rx ≠ s.rx.tail) ∧
    (s.status.getLsbD 1 = true ↔ incN s.cfg.nTx s.tx.head ≠ s.tailView .tx) ∧
    s.status.getLsbD 2 = s.escf ∧ s.status.getLsbD 3 = s.cancelPend ∧ s.status &&& 0xF0 = 0

/-- 44_control.md R211, R212: CTLS gives `CTRL` the value `CTRL | (d & 0x0F)`, CTLC `CTRL & ~(d & 0x0F)`; each answers
the value before. -/
def Obligations.CtlsAndCtlcWriteCtrl : Prop :=
  (∀ d : Byte, decode (0x9000 ||| d.setWidth 16) = .ok (.ctls d) ∧
    decode (0xA000 ||| d.setWidth 16) = .ok (.ctlc d)) ∧
  ∀ (d : Byte) (s : State), s.cur.upc = 0 →
    exec (.ctls d) s
      = .next ({ s with ctrl := s.ctrl.setBits d }.respond (0x0100 ||| s.ctrl.toByte.setWidth 16)) ∧
    (s.ctrl.setBits d).toByte = s.ctrl.toByte ||| (d &&& 0x0F) ∧
    exec (.ctlc d) s
      = .next ({ s with ctrl := s.ctrl.clearBits d }.respond (0x0100 ||| s.ctrl.toByte.setWidth 16)) ∧
    (s.ctrl.clearBits d).toByte = s.ctrl.toByte &&& ~~~(d &&& 0x0F)

/-- 43_filter.md R200: read and clear in one step; the cancel trace and `ESCF` stay. -/
def Obligations.CackReadsAndClears : Prop :=
  decode 0xC000 = .ok .cack ∧
  ∀ s : State, s.cur.upc = 0 →
    exec .cack s = .next ({ s with cancelPend := false }.respond (if s.cancelPend then 0x0100 else 0x0000))

/-- 43_filter.md R191, R193, R196: the filter on one character, its four cases, and the answer of each. -/
def Obligations.FstepAppliesTheFilter : Prop :=
  (∀ d : Byte, decode (0x7000 ||| d.setWidth 16) = .ok (.fstep d)) ∧
  ∀ (d : Byte) (s : State), s.cur.upc = 0 →
    (s.escf = true → d = s.cfg.cancelChar →
      exec (.fstep d) s = .next ({ s with escf := false, cancelPend := true, cancelCount := s.cancelCount + 1 }.respond
        0x0400)) ∧
    (s.escf = true → d ≠ s.cfg.cancelChar →
      exec (.fstep d) s = .next ({ s with escf := false }.respond (0x0100 ||| d.setWidth 16))) ∧
    (s.escf = false → d = s.cfg.escChar →
      exec (.fstep d) s = .next ({ s with escf := true }.respond 0x0000)) ∧
    (s.escf = false → d ≠ s.cfg.escChar →
      exec (.fstep d) s = .next (s.respond (0x0100 ||| d.setWidth 16)))

/-- 41_sync.md R164: the eight selectors. -/
def Obligations.PtrrReadsThePointer : Prop :=
  (∀ k : BitVec 3, decode (0xD000 ||| k.setWidth 16) = .ok (.ptrr k)) ∧
  ∀ s : State, s.cur.upc = 0 →
    (∀ k : BitVec 3, exec (.ptrr k) s = .next (s.respond (0x0100 ||| (s.ptrrValue k).setWidth 16))) ∧
    s.ptrrValue 0 = (BitVec.ofNat (s.cfg.width .tx) s.tx.head).setWidth 8 ∧
    s.ptrrValue 1 = (BitVec.ofNat (s.cfg.width .tx) (s.tailView .tx)).setWidth 8 ∧
    s.ptrrValue 2 = (BitVec.ofNat (s.cfg.width .rx) s.rx.tail).setWidth 8 ∧
    s.ptrrValue 3 = (BitVec.ofNat (s.cfg.width .rx) (s.headView .rx)).setWidth 8 ∧
    s.ptrrValue 4 = (bin2gray (BitVec.ofNat (s.cfg.width .tx) s.tx.head)).setWidth 8 ∧
    s.ptrrValue 5 = (bin2gray (BitVec.ofNat (s.cfg.width .tx) (s.tailView .tx))).setWidth 8 ∧
    s.ptrrValue 6 = (bin2gray (BitVec.ofNat (s.cfg.width .rx) s.rx.tail)).setWidth 8 ∧
    s.ptrrValue 7 = (bin2gray (BitVec.ofNat (s.cfg.width .rx) (s.headView .rx))).setWidth 8

/-- 40_ring.md R139, R140: the consumer's empty check of `RX` and the producer's full check of `TX`, on their views;
nothing written, so never a violation, on either port. -/
def Obligations.RxemptyAndTxfullAnswerTheChecks : Prop :=
  decode 0x5000 = .ok .rxempty ∧ decode 0x6000 = .ok .txfull ∧
  ∀ s : State, s.cur.upc = 0 →
    exec .rxempty s = .next (s.respond (if s.headView .rx = s.rx.tail then 0x0100 else 0x0000)) ∧
    exec .txfull s = .next (s.respond (if incN s.cfg.nTx s.tx.head = s.tailView .tx then 0x0100 else 0x0000))

/-! ### Commands of several micro-steps -/

/-- 40_ring.md R135: the micro-program of TXPUSH. -/
def Obligations.TxpushMicroProgram : Prop :=
  (∀ d : Byte, decode (0x4000 ||| d.setWidth 16) = .ok (.txpush d)) ∧
  ∀ (d : Byte) (s : State),
    (s.cur.upc = 0 → (s.stepping = .a → s.openP = false) →
      exec (.txpush d) s
        = .next (if incN s.cfg.nTx s.tx.head = s.tailView .tx then s.respond 0x0000 else s.goto 1)) ∧
    (s.cur.upc = 0 → s.stepping = .a → s.openP = true → exec (.txpush d) s = .fault .spscViolation) ∧
    (s.cur.upc = 1 → s.tx.head < s.cfg.nTx →
      exec (.txpush d) s
        = .next ({ s with tx := { s.tx with storage := Memory.write s.tx.storage s.tx.head d } }.goto 2)) ∧
    (s.cur.upc = 2 →
      exec (.txpush d) s
        = .next ({ s with tx := { s.tx with head := incN s.cfg.nTx s.tx.head } }.respond 0x0100))

/-- 40_ring.md R137: the micro-program of RXPOP. -/
def Obligations.RxpopMicroProgram : Prop :=
  decode 0x3000 = .ok .rxpop ∧
  ∀ s : State,
    (s.cur.upc = 0 → (s.stepping = .a → s.openC = false) →
      exec .rxpop s = .next (if s.headView .rx = s.rx.tail then s.respond 0x0000 else s.goto 1)) ∧
    (s.cur.upc = 0 → s.stepping = .a → s.openC = true → exec .rxpop s = .fault .spscViolation) ∧
    (∀ v, s.cur.upc = 1 → s.memRead .rx s.rx.tail = .ok v →
      exec .rxpop s = .next ((s.setCur { s.cur with t := v }).goto 2)) ∧
    (s.cur.upc = 2 →
      exec .rxpop s = .next ({ s with rx := { s.rx with tail := incN s.cfg.nRx s.rx.tail } }.respond
        (0x0100 ||| s.cur.t.setWidth 16)))

/-- 42_channel.md R171, R172: the micro-program of RD, its bracket on port F alone. -/
def Obligations.RdMicroProgram : Prop :=
  decode 0x1000 = .ok .rd ∧
  ∀ s : State,
    (s.cur.upc = 0 →
      exec .rd s = .next ((if s.stepping = .f
        then { s with sm := s.ctrl.imask, ctrl := { s.ctrl with imask := true } } else s).goto 1)) ∧
    (s.cur.upc = 1 → (s.stepping = .a → s.openC = false) →
      exec .rd s = .next (if s.headView .rx = s.rx.tail then s.goto 5 else s.goto 2)) ∧
    (s.cur.upc = 1 → s.stepping = .a → s.openC = true → exec .rd s = .fault .spscViolation) ∧
    (∀ v, s.cur.upc = 2 → s.memRead .rx s.rx.tail = .ok v →
      exec .rd s = .next ((s.setCur { s.cur with t := v }).goto 3)) ∧
    (s.cur.upc = 3 →
      exec .rd s = .next ({ s with rx := { s.rx with tail := incN s.cfg.nRx s.rx.tail } }.goto 4)) ∧
    (s.cur.upc = 4 →
      exec .rd s = .next ((if s.stepping = .f then { s with ctrl := { s.ctrl with imask := s.sm } } else s).respond
        (0x0100 ||| s.cur.t.setWidth 16))) ∧
    (s.cur.upc = 5 →
      exec .rd s = .next ((if s.stepping = .f then { s with ctrl := { s.ctrl with imask := s.sm } } else s).respond
        0x0000))

/-- 42_channel.md R174: the micro-program of WR, u0 to u9. -/
def Obligations.WrMicroProgram : Prop :=
  (∀ d : Byte, decode (0x2000 ||| d.setWidth 16) = .ok (.wr d)) ∧
  ∀ (d : Byte) (s : State),
    (s.cur.upc = 0 →
      exec (.wr d) s = .next (if d = 0x0A ∧ s.ctrl.crlf = true
        then (s.setCur { s.cur with c := 0x0D, lf := true }).goto 1
        else (s.setCur { s.cur with c := d, lf := false }).goto 1)) ∧
    (s.cur.upc = 1 →
      exec (.wr d) s = .next (
        if s.escf = true then
          if s.cur.c = s.cfg.cancelChar then
            { s with escf := false, cancelPend := true, cancelCount := s.cancelCount + 1 }.goto 9
          else { s with escf := false }.goto 2
        else if s.cur.c = s.cfg.escChar then { s with escf := true }.goto 9
        else s.goto 2)) ∧
    (s.cur.upc = 2 →
      exec (.wr d) s = .next ((if s.stepping = .f
        then { s with sm := s.ctrl.imask, ctrl := { s.ctrl with imask := true } } else s).goto 3)) ∧
    (s.cur.upc = 3 → (s.stepping = .a → s.openP = false) →
      exec (.wr d) s = .next (if incN s.cfg.nTx s.tx.head = s.tailView .tx then s.goto 7 else s.goto 4)) ∧
    (s.cur.upc = 3 → s.stepping = .a → s.openP = true → exec (.wr d) s = .fault .spscViolation) ∧
    (s.cur.upc = 4 → s.tx.head < s.cfg.nTx →
      exec (.wr d) s
        = .next ({ s with tx := { s.tx with storage := Memory.write s.tx.storage s.tx.head s.cur.c } }.goto 5)) ∧
    (s.cur.upc = 5 →
      exec (.wr d) s = .next ({ s with tx := { s.tx with head := incN s.cfg.nTx s.tx.head } }.goto 6)) ∧
    (s.cur.upc = 6 →
      exec (.wr d) s
        = .next ((if s.stepping = .f then { s with ctrl := { s.ctrl with imask := s.sm } } else s).goto 8)) ∧
    (s.cur.upc = 7 →
      exec (.wr d) s
        = .next ((if s.stepping = .f then { s with ctrl := { s.ctrl with imask := s.sm } } else s).goto 9)) ∧
    (s.cur.upc = 8 →
      exec (.wr d) s = .next ({ s with ctrl := { s.ctrl with txie := true } }.goto 9)) ∧
    (s.cur.upc = 9 →
      exec (.wr d) s = .next (if s.cur.lf = true
        then (s.setCur { s.cur with c := 0x0A, lf := false }).goto 1 else s.respond 0x0000))

/-- 10_state.md R28, 20_memory.md R62, R43 (logs 6, 7, 8): the stops of `exec`: it is never refused; an index the
micro-program does not define stops it, and so do a load from a slot without a value and a store at an index outside
the storage, each at its own micro-step; and those, with the fault of 60_exceptions.md R230, are all. -/
def Obligations.WhereACommandStops : Prop :=
  ∀ (i : Instr) (s : State),
    (∀ r, exec i s ≠ .refused r) ∧
    (exec i s = .fault .undefinedMicroStep ↔ lastIndex i < s.cur.upc.toNat) ∧
    (∀ b, exec i s = .fault (.unwrittenSlot b) ↔
      b = .rx ∧ ((i = .rxpop ∧ s.cur.upc = 1) ∨ (i = .rd ∧ s.cur.upc = 2)) ∧
      s.memRead .rx s.rx.tail = .error (.unwrittenSlot .rx)) ∧
    (∀ b, exec i s = .fault (.noSuchSlot b) ↔
      (b = .rx ∧ ((i = .rxpop ∧ s.cur.upc = 1) ∨ (i = .rd ∧ s.cur.upc = 2)) ∧ s.cfg.nRx ≤ s.rx.tail) ∨
      (b = .tx ∧ (((∃ d, i = .txpush d) ∧ s.cur.upc = 1) ∨ ((∃ d, i = .wr d) ∧ s.cur.upc = 4)) ∧
        s.cfg.nTx ≤ s.tx.head))

/-- 40_ring.md R135, R128: TXPUSH run with nothing between its micro-steps: the byte joins the end of `TX`, or nothing
changes but the answer. -/
def Obligations.TxpushAloneIsPush : Prop :=
  ∀ (d : Byte) (s : State), Inv s → s.running s.stepping = some (.txpush d) → s.cur.upc = 0 →
    (s.stepping = .a → s.openP = false) →
    (s.fullP .tx = true → runCommand (.txpush d) 3 s = .next (s.respond 0x0000)) ∧
    (s.fullP .tx = false → ∃ t : State, runCommand (.txpush d) 3 s = .next t ∧
      t.contents .tx = s.contents .tx ++ [d] ∧ t.rspTrace = s.rspTrace ++ [(s.stepping, 0x0100)] ∧
      t.cur.busy = false ∧ t.rx = s.rx ∧ t.ctrl = s.ctrl ∧ t.escf = s.escf ∧ t.cancelPend = s.cancelPend ∧
      t.tx.tail = s.tx.tail ∧ t.port s.stepping.other = s.port s.stepping.other)

/-- 42_channel.md R171, R172; 40_ring.md R138: RD run with nothing between its micro-steps takes the oldest byte of `RX`,
or answers "no data"; the mask ends as it began; and RXPOP gives the same answer and leaves the same ring. -/
def Obligations.RdAloneIsPop : Prop :=
  ∀ s : State, s.cur.busy = true → s.cur.upc = 0 → (s.stepping = .a → s.openC = false) →
    (s.emptyC .rx = true → ∃ t u : State, runCommand .rd 5 s = .next t ∧ runCommand .rxpop 3 s = .next u ∧
      t.cur.rsp = 0x0000 ∧ t.cur.busy = false ∧ u.cur.rsp = 0x0000 ∧ u.cur.busy = false ∧
      t.rx = s.rx ∧ u.rx = s.rx ∧ t.ctrl = s.ctrl ∧ u.ctrl = s.ctrl ∧ t.tx = s.tx ∧
      t.rspTrace = s.rspTrace ++ [(s.stepping, 0x0000)] ∧ u.rspTrace = t.rspTrace) ∧
    (∀ v, s.emptyC .rx = false → s.memRead .rx s.rx.tail = .ok v →
      ∃ t u : State, runCommand .rd 5 s = .next t ∧ runCommand .rxpop 3 s = .next u ∧
      t.cur.rsp = 0x0100 ||| v.setWidth 16 ∧ t.cur.busy = false ∧ u.cur.rsp = t.cur.rsp ∧ u.cur.busy = false ∧
      t.rx = { s.rx with tail := incN s.cfg.nRx s.rx.tail } ∧ u.rx = t.rx ∧ t.ctrl = s.ctrl ∧ u.ctrl = s.ctrl ∧
      t.tx = s.tx ∧ t.rspTrace = s.rspTrace ++ [(s.stepping, 0x0100 ||| v.setWidth 16)] ∧
      u.rspTrace = t.rspTrace)

/-- 42_channel.md R174 to R180, R172: WR run with nothing between its micro-steps is the atomic write of its character (or
of a carriage return and then it), on either port; the mask ends as it began and the answer is 0x0000. -/
def Obligations.WrAloneIsAtomicWrite : Prop :=
  ∀ (d : Byte) (s : State), s.cur.busy = true → s.cur.upc = 0 → s.tx.head < s.cfg.nTx →
    (s.stepping = .a → s.openP = false) →
    ∃ t : State, runCommand (.wr d) 17 s = .next t ∧
      t.tx = (s.writeChar d).tx ∧ t.escf = (s.writeChar d).escf ∧ t.cancelPend = (s.writeChar d).cancelPend ∧
      t.cancelCount = (s.writeChar d).cancelCount ∧ t.ctrl = (s.writeChar d).ctrl ∧ t.ctrl.imask = s.ctrl.imask ∧
      t.rx = s.rx ∧ t.insvc = s.insvc ∧ t.cfg = s.cfg ∧ t.script = s.script ∧ t.txTrace = s.txTrace ∧
      t.rxTrace = s.rxTrace ∧ t.port s.stepping.other = s.port s.stepping.other ∧
      (t.sm = s.sm ∨ (s.stepping = .f ∧ t.sm = s.ctrl.imask)) ∧
      t.cur.rsp = 0x0000 ∧ t.cur.busy = false ∧ t.cur.lf = false ∧
      t.rspTrace = s.rspTrace ++ [(s.stepping, 0x0000)]

/-- 42_channel.md R175: how many micro-steps a WR takes. -/
def Obligations.WrMicroStepCounts : Prop :=
  ∀ (d : Byte) (s : State), s.cur.busy = true → s.cur.upc = 0 → s.tx.head < s.cfg.nTx →
    (s.stepping = .a → s.openP = false) →
    ((d = 0x0A ∧ s.ctrl.crlf = true) →
      countSteps (.wr d) 17 s = 1 + s.writeCost 0x0D + (s.writeByte 0x0D).writeCost 0x0A ∧
      5 ≤ countSteps (.wr d) 17 s ∧ countSteps (.wr d) 17 s ≤ 17) ∧
    (¬(d = 0x0A ∧ s.ctrl.crlf = true) →
      countSteps (.wr d) 17 s = 1 + s.writeCost d ∧
      (countSteps (.wr d) 17 s = 3 ∨ countSteps (.wr d) 17 s = 6 ∨ countSteps (.wr d) 17 s = 9))

/-- 20_memory.md R81, 70_reset_and_hazards.md R287, 30_encoding.md R94: whatever is done between the micro-steps of a port,
each micro-step of its word, legal or not, ends the word with one response of that port or leaves fewer micro-steps
to do, and no other step touches the port; from u0 there are at most 17. And a legal command run with nothing between
its micro-steps ends within 17, unless port A meets an end that port F has open and SpscViolation is recorded. -/
def Obligations.EveryCommandEndsWithin17 : Prop :=
  (∀ (s t : State) (x : Port), step s = .next t → (s.port x).busy = true →
    (s.nextEvent = some (.micro x) ∧ s.stepping = x ∧ (t.port x).busy = true ∧ (t.port x).cmd = (s.port x).cmd ∧
      t.stepsLeft x < s.stepsLeft x ∧ t.rspTrace = s.rspTrace) ∨
    (s.nextEvent = some (.micro x) ∧ s.stepping = x ∧ (t.port x).busy = false ∧
      t.rspTrace = s.rspTrace ++ [(x, (t.port x).rsp)]) ∨
    (¬(s.nextEvent = some (.micro x) ∧ s.stepping = x) ∧ t.port x = s.port x ∧
      ∃ l, t.rspTrace = s.rspTrace ++ l ∧ ∀ r ∈ l, r.1 ≠ x)) ∧
  (∀ (s : State) (x : Port), (s.port x).upc = 0 → s.stepsLeft x ≤ 17) ∧
  ∀ (s : State) (i : Instr), Inv s → s.running s.stepping = some i → s.cur.upc = 0 →
    (∃ t : State, runCommand i 17 s = .next t ∧ t.cur.busy = false ∧
      t.rspTrace = s.rspTrace ++ [(s.stepping, t.cur.rsp)]) ∨
    (s.meetsOpenEnd i ∧ runCommand i 17 s = .fault .spscViolation)

/-- 30_encoding.md R94, R95: a step adds at most one response, of the port that steps, and only a value the table allows
the command (0x0200 for an illegal word). -/
def Obligations.ResponsesAreThoseOfTheTable : Prop :=
  ∀ s t : State, step s = .next t →
    t.rspTrace = s.rspTrace ∨
    ∃ w : Word, s.nextEvent = some (.micro s.stepping) ∧ t.rspTrace = s.rspTrace ++ [(s.stepping, w)] ∧
      t.cur.rsp = w ∧ t.cur.busy = false ∧
      ((∃ i, decode s.cur.cmd = .ok i ∧ allowedRsp s i w) ∨ ((∃ e, decode s.cur.cmd = .error e) ∧ w = 0x0200))

/-! ### Frames -/

/-- What the commands that only read leave unchanged (40_ring.md R139, R140; 41_sync.md R164; 44_control.md R209, R210,
R214): everything but their own port's `busy` and `rsp`, and the response trace; every byte reads as before. -/
def Obligations.ReadingCommandsFrame : Prop :=
  ∀ (i : Instr) (s t : State),
    (i = .nop ∨ i = .ctlr ∨ i = .stat ∨ i = .rxempty ∨ i = .txfull ∨ ∃ k, i = .ptrr k) → exec i s = .next t →
    (∃ w, t.cur = { s.cur with rsp := w, busy := false }) ∧ t.port s.stepping.other = s.port s.stepping.other ∧
    (∀ (b : RingId) (a : Nat), t.memRead b a = s.memRead b a) ∧ t.rx = s.rx ∧ t.tx = s.tx ∧ t.escf = s.escf ∧
    t.cancelPend = s.cancelPend ∧ t.ctrl = s.ctrl ∧ t.insvc = s.insvc ∧ t.sm = s.sm ∧ t.cfg = s.cfg ∧
    t.script = s.script ∧ t.txTrace = s.txTrace ∧ t.cancelCount = s.cancelCount ∧ t.rxTrace = s.rxTrace

/-- What the commands that write a control bit or a flag leave unchanged (43_filter.md R196, R197, R200; 44_control.md
R211, R212): CTLS and CTLC write `CTRL`, FSTEP `ESCF`, `CANCEL_PEND` and the cancel trace, CACK `CANCEL_PEND`. -/
def Obligations.FlagCommandsFrame : Prop :=
  ∀ (i : Instr) (s t : State),
    ((∃ d, i = .ctls d) ∨ (∃ d, i = .ctlc d) ∨ (∃ d, i = .fstep d) ∨ i = .cack) → exec i s = .next t →
    (∃ w, t.cur = { s.cur with rsp := w, busy := false }) ∧ t.port s.stepping.other = s.port s.stepping.other ∧
    (∀ (b : RingId) (a : Nat), t.memRead b a = s.memRead b a) ∧ t.rx = s.rx ∧ t.tx = s.tx ∧
    (t.escf = s.escf ∨ ∃ d, i = .fstep d) ∧ (t.cancelPend = s.cancelPend ∨ (∃ d, i = .fstep d) ∨ i = .cack) ∧
    (t.cancelCount = s.cancelCount ∨ ∃ d, i = .fstep d) ∧
    (t.ctrl = s.ctrl ∨ (∃ d, i = .ctls d) ∨ ∃ d, i = .ctlc d) ∧
    t.insvc = s.insvc ∧ t.sm = s.sm ∧ t.cfg = s.cfg ∧ t.script = s.script ∧ t.txTrace = s.txTrace ∧
    t.rxTrace = s.rxTrace

/-- What a pop from `RX` leaves unchanged (40_ring.md R137, 42_channel.md R171): no byte of storage, nothing of `TX`, the
filter or the enables; of `RX` only `tail` moves, and only RD on port F writes `F.sm` and `CTRL.IMASK`. -/
def Obligations.PoppingCommandsFrame : Prop :=
  ∀ (i : Instr) (s t : State), (i = .rd ∨ i = .rxpop) → exec i s = .next t →
    (∀ (b : RingId) (a : Nat), t.memRead b a = s.memRead b a) ∧ t.tx = s.tx ∧
    t.rx = { s.rx with tail := t.rx.tail } ∧
    t.cur = { s.cur with busy := t.cur.busy, upc := t.cur.upc, rsp := t.cur.rsp, t := t.cur.t } ∧
    t.port s.stepping.other = s.port s.stepping.other ∧ t.escf = s.escf ∧ t.cancelPend = s.cancelPend ∧
    t.cancelCount = s.cancelCount ∧ t.ctrl = { s.ctrl with imask := t.ctrl.imask } ∧
    ((t.sm = s.sm ∧ t.ctrl.imask = s.ctrl.imask) ∨ (i = .rd ∧ s.stepping = .f)) ∧
    t.insvc = s.insvc ∧ t.cfg = s.cfg ∧ t.script = s.script ∧ t.txTrace = s.txTrace ∧ t.rxTrace = s.rxTrace

/-- What a push onto `TX` leaves unchanged (40_ring.md R129, R135; 42_channel.md R174): the one byte stored to is the slot
at `TX.head`, where PSTO stores; of `TX` beside storage only `head` moves; nothing of `RX`; TXPUSH leaves the filter,
`CTRL` and `F.sm` alone. -/
def Obligations.PushingCommandsFrame : Prop :=
  ∀ (i : Instr) (s t : State), ((∃ d, i = .txpush d) ∨ ∃ d, i = .wr d) → exec i s = .next t →
    (∀ a : Nat, a ≠ (s.ring .tx).head → t.memRead .tx a = s.memRead .tx a) ∧
    (∀ a : Nat, t.memRead .rx a = s.memRead .rx a) ∧
    ((s.cur.upc ≠ 1 ∨ ∃ d, i = .wr d) → s.cur.upc ≠ 4 → ∀ a : Nat, t.memRead .tx a = s.memRead .tx a) ∧
    t.rx = s.rx ∧ t.tx = { s.tx with storage := t.tx.storage, head := t.tx.head } ∧
    t.cur = { s.cur with
      busy := t.cur.busy, upc := t.cur.upc, rsp := t.cur.rsp, c := t.cur.c, lf := t.cur.lf } ∧
    t.port s.stepping.other = s.port s.stepping.other ∧
    t.ctrl = { s.ctrl with txie := t.ctrl.txie, imask := t.ctrl.imask } ∧
    (((∃ d, i = .wr d) ∧ s.stepping = .f) ∨ (t.sm = s.sm ∧ t.ctrl.imask = s.ctrl.imask)) ∧
    ((∃ d, i = .wr d) ∨ (t.ctrl = s.ctrl ∧ t.escf = s.escf ∧ t.cancelPend = s.cancelPend ∧
      t.cancelCount = s.cancelCount)) ∧
    t.insvc = s.insvc ∧ t.cfg = s.cfg ∧ t.script = s.script ∧ t.txTrace = s.txTrace ∧ t.rxTrace = s.rxTrace

/-! ### The other agents -/

/-- 60_exceptions.md R235, R236, R240: the `RXP` step, and that there is none unless it is enabled. That the model then
drops the choice is its own (log 2). -/
def Obligations.RxpTakesOneByte : Prop :=
  ∀ (s : State) (v : Byte) (rest : List Event), s.cfg.wf = true → s.script = .rxp v :: rest →
    s.rx.head < s.cfg.nRx →
    ((s.insvc = .none ∧ s.ctrl.imask = false ∧ s.ctrl.rxie = true) →
      step s = .next (if incN s.cfg.nRx s.rx.head = s.tailView .rx
        then { s with script := rest, rxTrace := s.rxTrace ++ [v] }
        else { s with
          script := rest
          rxTrace := s.rxTrace ++ [v]
          rx := { s.rx with storage := Memory.write s.rx.storage s.rx.head v, head := incN s.cfg.nRx s.rx.head } })) ∧
    (¬(s.insvc = .none ∧ s.ctrl.imask = false ∧ s.ctrl.rxie = true) → step s = .next { s with script := rest })

/-- 60_exceptions.md R237, R238, R240: the `TXC` step: it sends the oldest byte, or with `TX_AUTOSTOP` disables itself on
an empty ring; and there is none unless it is enabled. That the model then drops the choice is its own (log 2). -/
def Obligations.TxcSendsOneByte : Prop :=
  ∀ (s : State) (rest : List Event), s.cfg.wf = true → s.script = .txc :: rest →
    (∀ v, s.insvc = .none → s.ctrl.imask = false → s.ctrl.txie = true → s.headView .tx ≠ s.tx.tail →
      s.memRead .tx s.tx.tail = .ok v →
      step s = .next { s with
        script := rest
        txTrace := s.txTrace ++ [v]
        tx := { s.tx with tail := incN s.cfg.nTx s.tx.tail } }) ∧
    (s.insvc = .none → s.ctrl.imask = false → s.ctrl.txie = true → s.headView .tx = s.tx.tail →
      s.cfg.txAutostop = true →
      step s = .next { s with script := rest, ctrl := { s.ctrl with txie := false } }) ∧
    ((s.insvc = .a ∨ s.ctrl.imask = true ∨ s.ctrl.txie = false ∨
        (s.headView .tx = s.tx.tail ∧ s.cfg.txAutostop = false)) →
      step s = .next { s with script := rest })

/-- 60_exceptions.md R248, R250: entry and return change `insvc` alone, and when there is such a step.
That the model drops the choice where there is no such step is its own (log 2). -/
def Obligations.SessionOpensAndCloses : Prop :=
  ∀ (s : State) (rest : List Event), s.cfg.wf = true →
    (s.script = .aEnter :: rest →
      step s = .next (if s.insvc = .none ∧ s.ctrl.imask = false
        then { s with script := rest, insvc := .a } else { s with script := rest })) ∧
    (s.script = .aLeave :: rest →
      step s = .next (if s.insvc = .a ∧ s.a.busy = false
        then { s with script := rest, insvc := .none } else { s with script := rest }))

/-- 60_exceptions.md R248, R249, R251, R254: while a session is open, whatever step is taken, port F's latches and `F.sm`
stay, no byte is received and none is sent. -/
def Obligations.ASessionHoldsTheOthers : Prop :=
  ∀ s t : State, s.insvc = .a → step s = .next t →
    t.f = s.f ∧ t.sm = s.sm ∧ t.rxTrace = s.rxTrace ∧ t.txTrace = s.txTrace ∧ t.rx.head = s.rx.head ∧
    t.tx.tail = s.tx.tail ∧ (t.insvc = .a ∨ (s.nextEvent = some .aLeave ∧ s.a.busy = false))

/-- 00_scope.md R8, 70_reset_and_hazards.md R289; 60_exceptions.md R253, R254: no step changes a parameter, and with no
session open none writes a latch of port A. -/
def Obligations.ParametersAndIdlePortAStay : Prop :=
  ∀ s t : State, step s = .next t → t.cfg = s.cfg ∧ (s.insvc = .none → t.a = s.a)

/-- 60_exceptions.md R241: the quirk step. That the model drops the choice where there is no such step is its own
(log 2). -/
def Obligations.QuirkClearsOneEnable : Prop :=
  ∀ (s : State) (rest : List Event), s.cfg.wf = true →
    (s.script = .quirk .rxie :: rest →
      step s = .next (if s.cfg.quirkClears = true ∧ s.ctrl.rxie = true
        then { s with script := rest, ctrl := { s.ctrl with rxie := false } } else { s with script := rest })) ∧
    (s.script = .quirk .txie :: rest →
      step s = .next (if s.cfg.quirkClears = true ∧ s.ctrl.txie = true
        then { s with script := rest, ctrl := { s.ctrl with txie := false } } else { s with script := rest }))

/-! ### Who writes what -/

/-- 10_state.md R31, R32, 43_filter.md R190, R198 to R200, R203: only a filter step changes `ESCF`; `CANCEL_PEND` is set
only by a filter step with the flag up, which adds one cancel event, and cleared only by CACK; the cancel trace grows
by at most one. -/
def Obligations.WhoWritesTheFilterFlags : Prop :=
  ∀ s t : State, step s = .next t →
    (t.escf = s.escf ∨
      (s.nextEvent = some (.micro s.stepping) ∧ s.stands s.stepping filtering = true)) ∧
    (t.cancelCount = s.cancelCount ∨
      (t.cancelCount = s.cancelCount + 1 ∧ t.cancelPend = true ∧ s.escf = true ∧ t.escf = false ∧
        s.nextEvent = some (.micro s.stepping) ∧ s.stands s.stepping filtering = true)) ∧
    (s.cancelPend = false → t.cancelPend = true → t.cancelCount = s.cancelCount + 1) ∧
    (s.cancelPend = true → t.cancelPend = false →
      s.nextEvent = some (.micro s.stepping) ∧ s.running s.stepping = some .cack)

/-- 10_state.md R41, 40_ring.md R130, R133, R126: a pointer changes only by `incN`, `TX.head` by a port's publish, `TX.tail`
by `TXC`, `RX.head` by `RXP`, `RX.tail` by a port's release. -/
def Obligations.WhoMovesThePointers : Prop :=
  ∀ s t : State, step s = .next t →
    (t.tx.head = s.tx.head ∨ (t.tx.head = incN s.cfg.nTx s.tx.head ∧
      s.nextEvent = some (.micro s.stepping) ∧ (s.publishByte s.stepping).isSome = true)) ∧
    (t.tx.tail = s.tx.tail ∨ (t.tx.tail = incN s.cfg.nTx s.tx.tail ∧ s.nextEvent = some .txc)) ∧
    (t.rx.head = s.rx.head ∨ (t.rx.head = incN s.cfg.nRx s.rx.head ∧ ∃ v, s.nextEvent = some (.rxp v))) ∧
    (t.rx.tail = s.rx.tail ∨ (t.rx.tail = incN s.cfg.nRx s.rx.tail ∧
      s.nextEvent = some (.micro s.stepping) ∧ s.stands s.stepping releasing = true))

/-- 10_state.md R42, 40_ring.md R126, R129: a slot changes only at its ring's `head`, in `RX` by an `RXP` step, in `TX` by a
port's TXPUSH u1 or WR u4. -/
def Obligations.WhoWritesASlot : Prop :=
  ∀ (s t : State) (b : RingId) (a : Nat), step s = .next t → t.memRead b a ≠ s.memRead b a →
    a = (s.ring b).head ∧
    match b with
    | .rx => ∃ v, s.nextEvent = some (.rxp v) ∧ t.memRead b a = .ok v
    | .tx => s.nextEvent = some (.micro s.stepping) ∧
      ((∃ d, s.running s.stepping = some (.txpush d) ∧ s.cur.upc = 1 ∧ t.memRead b a = .ok d) ∨
       ((∃ d, s.running s.stepping = some (.wr d)) ∧ s.cur.upc = 4 ∧ t.memRead b a = .ok s.cur.c))

/-- 10_state.md R35 to R38: who changes each bit of `CTRL`. -/
def Obligations.WhoWritesCtrl : Prop :=
  ∀ s t : State, step s = .next t →
    let atCtl := s.nextEvent = some (.micro s.stepping) ∧
      ((∃ d, s.running s.stepping = some (.ctls d)) ∨ ∃ d, s.running s.stepping = some (.ctlc d))
    (t.ctrl.rxie = s.ctrl.rxie ∨ atCtl ∨ (s.nextEvent = some (.quirk .rxie) ∧ t.ctrl.rxie = false)) ∧
    (t.ctrl.txie = s.ctrl.txie ∨ atCtl ∨ (s.nextEvent = some (.quirk .txie) ∧ t.ctrl.txie = false) ∨
      (s.nextEvent = some .txc ∧ t.ctrl.txie = false ∧ s.cfg.txAutostop = true) ∨
      (s.nextEvent = some (.micro s.stepping) ∧ (∃ d, s.running s.stepping = some (.wr d)) ∧ s.cur.upc = 8)) ∧
    (t.ctrl.crlf = s.ctrl.crlf ∨ atCtl) ∧
    (t.ctrl.imask = s.ctrl.imask ∨ atCtl ∨
      (s.nextEvent = some (.micro .f) ∧ s.insvc = .none ∧
        (s.running .f = some .rd ∨ ∃ d, s.running .f = some (.wr d))))

/-! ### The end of a run -/

/-- 70_reset_and_hazards.md R288: a quiescent state is no deadlock: port F accepts any word. -/
def Obligations.QuiescentStatesAcceptACommand : Prop :=
  ∀ (s : State) (w : Word), s.quiescent = true → s.enabled (.accept .f w) = true ∧ s.enabled .txc = false
end

