-- ==== Sys2Proof/Laws/Memory.lean ====
section
/-! SUPPORT. The laws of ring storage: read after write, and the canonical form kept by every write (20_memory.md R71,
R83). -/

namespace Sys2Proof.Machine

@[simp] theorem Memory.read_write_same (m : Memory) (a : Nat) (v : Byte) :
    Memory.read (Memory.write m a v) a = some v := by
  induction m with
  | nil => simp [Memory.write, Memory.read]
  | cons c m ih =>
    obtain ⟨b, w⟩ := c
    simp only [Memory.write]
    split
    · simp [Memory.read]
    · split
      · simp [Memory.read]
      · simp [Memory.read, *]

theorem Memory.read_write_other (m : Memory) {a b : Nat} (v : Byte) (h : b ≠ a) :
    Memory.read (Memory.write m a v) b = Memory.read m b := by
  induction m with
  | nil => simp [Memory.write, Memory.read, h]
  | cons c m ih =>
    obtain ⟨d, w⟩ := c
    simp only [Memory.write]
    split
    · simp [Memory.read, h]
    · split
      · simp [Memory.read, h, ← ‹a = d›]
      · simp [Memory.read, ih]

theorem Memory.mem_write {m : Memory} {a : Nat} {v : Byte} {c : Host.Cell} (h : c ∈ Memory.write m a v) :
    c = (a, v) ∨ c ∈ m := by
  induction m with
  | nil => simpa [Memory.write] using h
  | cons d m ih =>
    obtain ⟨b, w⟩ := d
    simp only [Memory.write] at h
    split at h
    · simpa using h
    · split at h
      · simp only [List.mem_cons] at h ⊢
        tauto
      · simp only [List.mem_cons] at h ⊢
        rcases h with h | h
        · tauto
        · rcases ih h with h | h <;> tauto

/-- A write keeps the one canonical form. -/
theorem Memory.write_wf {m : Memory} (a : Nat) (v : Byte) (h : Memory.wf m) : Memory.wf (Memory.write m a v) := by
  induction m with
  | nil => simp [Memory.write]
  | cons c m ih =>
    obtain ⟨b, w⟩ := c
    simp only [Memory.wf, List.pairwise_cons] at h
    simp only [Memory.write]
    split
    · simp only [Memory.wf, List.pairwise_cons, List.mem_cons]
      refine ⟨?_, h.1, h.2⟩
      rintro x (rfl | hx)
      · assumption
      · exact lt_trans (by assumption) (h.1 x hx)
    · split
      · subst_vars
        simp only [Memory.wf, List.pairwise_cons]
        exact ⟨h.1, h.2⟩
      · simp only [Memory.wf, List.pairwise_cons]
        refine ⟨fun x hx => ?_, ih h.2⟩
        rcases Memory.mem_write hx with rfl | hx
        · simp only; omega
        · exact h.1 x hx

/-- A write at an index below a bound lists only indices below it. -/
theorem Memory.write_lt {m : Memory} {n a : Nat} (v : Byte) (ha : a < n) (h : ∀ c ∈ m, c.1 < n) :
    ∀ c ∈ Memory.write m a v, c.1 < n := by
  intro c hc
  rcases Memory.mem_write hc with rfl | hc
  · exact ha
  · exact h c hc

theorem Ring.reset_storage_wf : Memory.wf Ring.reset.storage := List.Pairwise.nil

theorem State.reset_storage_wf (b : RingId) : Memory.wf (State.reset.ring b).storage := by
  cases b <;> exact List.Pairwise.nil

/-- Every store of the machine keeps the canonical form of both storage arrays. -/
theorem State.memWrite_wf {s s' : State} {b : RingId} {i : Nat} {v : Byte} (h : s.memWrite b i v = .ok s')
    (hw : ∀ c, Memory.wf (s.ring c).storage) : ∀ c, Memory.wf (s'.ring c).storage := by
  unfold State.memWrite at h
  split at h
  · cases h
    intro c
    cases b <;> cases c
    · exact Memory.write_wf _ _ (hw .rx)
    · exact hw .tx
    · exact hw .rx
    · exact Memory.write_wf _ _ (hw .tx)
  · cases h

end Sys2Proof.Machine
end

