-- ==== Sys2Proof/Laws/Pointers.lean ====
section
/-! SUPPORT. Pointer arithmetic modulo the capacity (00_scope.md R15, 40_ring.md R125): `incN` and `distN` in forms `omega`
can use. -/

namespace Sys2Proof.Machine

theorem incN_lt {n p : Nat} (h : 0 < n) : incN n p < n := by
  unfold incN
  split <;> omega

theorem incN_eq_mod {n p : Nat} (h : p < n) : incN n p = (p + 1) % n := by
  unfold incN
  split
  · rw [Nat.mod_eq_of_lt (by assumption)]
  · rw [show p + 1 = n by omega, Nat.mod_self]

theorem incN_ne_self {n p : Nat} (h : 2 ≤ n) : incN n p ≠ p := by
  unfold incN
  split <;> omega

/-- `distN` by cases: forward without or with a wrap. -/
theorem distN_cases {n a b : Nat} (ha : a < n) (hb : b < n) :
    (a ≤ b ∧ distN n a b = b - a) ∨ (b < a ∧ distN n a b = b + n - a) := by
  unfold distN
  by_cases h : a ≤ b
  · left
    refine ⟨h, ?_⟩
    rw [show b + n - a = (b - a) + n by omega, Nat.add_mod_right, Nat.mod_eq_of_lt (by omega)]
  · right
    exact ⟨by omega, Nat.mod_eq_of_lt (by omega)⟩

theorem distN_lt {n a b : Nat} (h : 0 < n) : distN n a b < n :=
  Nat.mod_lt _ h

@[simp] theorem distN_self {n a : Nat} (h : a < n) : distN n a a = 0 := by
  rcases distN_cases h h with ⟨_, h'⟩ | ⟨h', _⟩ <;> omega

theorem distN_eq_zero {n a b : Nat} (ha : a < n) (hb : b < n) : distN n a b = 0 ↔ a = b := by
  rcases distN_cases ha hb with ⟨_, h⟩ | ⟨_, h⟩ <;> omega

theorem incN_cases (n p : Nat) : (p + 1 < n ∧ incN n p = p + 1) ∨ (n ≤ p + 1 ∧ incN n p = 0) := by
  unfold incN
  split
  · exact .inl ⟨by assumption, rfl⟩
  · exact .inr ⟨by omega, rfl⟩

/-- One step of the far end, when there is room for it. -/
theorem distN_inc_right {n a b : Nat} (ha : a < n) (hb : b < n) (h : incN n b ≠ a) :
    distN n a (incN n b) = distN n a b + 1 := by
  have hi : incN n b < n := incN_lt (by omega)
  rcases incN_cases n b with ⟨_, hc⟩ | ⟨_, hc⟩ <;> rcases distN_cases ha hb with ⟨_, h1⟩ | ⟨_, h1⟩ <;>
    rcases distN_cases ha hi with ⟨_, h2⟩ | ⟨_, h2⟩ <;> omega

/-- One step of the near end, when it is not at the far end. -/
theorem distN_inc_left {n a b : Nat} (ha : a < n) (hb : b < n) (h : a ≠ b) :
    distN n (incN n a) b + 1 = distN n a b := by
  have hi : incN n a < n := incN_lt (by omega)
  rcases incN_cases n a with ⟨_, hc⟩ | ⟨_, hc⟩ <;> rcases distN_cases ha hb with ⟨_, h1⟩ | ⟨_, h1⟩ <;>
    rcases distN_cases hi hb with ⟨_, h2⟩ | ⟨_, h2⟩ <;> omega

theorem add_mod_cases {n a k : Nat} (ha : a < n) (hk : k < n) :
    (a + k < n ∧ (a + k) % n = a + k) ∨ (n ≤ a + k ∧ (a + k) % n = a + k - n) := by
  by_cases h : a + k < n
  · exact .inl ⟨h, Nat.mod_eq_of_lt h⟩
  · refine .inr ⟨by omega, ?_⟩
    rw [Nat.mod_eq_sub_mod (by omega), Nat.mod_eq_of_lt (by omega)]

/-- `k` steps of the near end, not past the far end (41_sync.md R158). -/
theorem distN_add_left {n a b k : Nat} (ha : a < n) (hb : b < n) (hk : k ≤ distN n a b) :
    distN n ((a + k) % n) b + k = distN n a b := by
  have hn : 0 < n := by omega
  have hi : (a + k) % n < n := Nat.mod_lt _ hn
  have hd : distN n a b < n := distN_lt hn
  rcases add_mod_cases ha (show k < n by omega) with ⟨_, hm⟩ | ⟨_, hm⟩ <;>
    rcases distN_cases ha hb with ⟨_, h1⟩ | ⟨_, h1⟩ <;>
    rcases distN_cases hi hb with ⟨_, h2⟩ | ⟨_, h2⟩ <;> omega

end Sys2Proof.Machine
end

