-- ==== Sys2Proof/Laws/State.lean ====
section
/-! SUPPORT. One lemma per field per update of the state, so that no proof unfolds a record update. -/

namespace Sys2Proof.Machine

/-! ### `setPort` -/

@[simp] theorem State.setPort_rx (s : State) (x : Port) (p : PortState) : (s.setPort x p).rx = s.rx := by
  cases x <;> rfl

@[simp] theorem State.setPort_tx (s : State) (x : Port) (p : PortState) : (s.setPort x p).tx = s.tx := by
  cases x <;> rfl

@[simp] theorem State.setPort_escf (s : State) (x : Port) (p : PortState) : (s.setPort x p).escf = s.escf := by
  cases x <;> rfl

@[simp] theorem State.setPort_cancelPend (s : State) (x : Port) (p : PortState) : (s.setPort x p).cancelPend = s.cancelPend := by
  cases x <;> rfl

@[simp] theorem State.setPort_ctrl (s : State) (x : Port) (p : PortState) : (s.setPort x p).ctrl = s.ctrl := by
  cases x <;> rfl

@[simp] theorem State.setPort_insvc (s : State) (x : Port) (p : PortState) : (s.setPort x p).insvc = s.insvc := by
  cases x <;> rfl

@[simp] theorem State.setPort_sm (s : State) (x : Port) (p : PortState) : (s.setPort x p).sm = s.sm := by
  cases x <;> rfl

@[simp] theorem State.setPort_cfg (s : State) (x : Port) (p : PortState) : (s.setPort x p).cfg = s.cfg := by
  cases x <;> rfl

@[simp] theorem State.setPort_script (s : State) (x : Port) (p : PortState) : (s.setPort x p).script = s.script := by
  cases x <;> rfl

@[simp] theorem State.setPort_txTrace (s : State) (x : Port) (p : PortState) : (s.setPort x p).txTrace = s.txTrace := by
  cases x <;> rfl

@[simp] theorem State.setPort_cancelCount (s : State) (x : Port) (p : PortState) : (s.setPort x p).cancelCount = s.cancelCount := by
  cases x <;> rfl

@[simp] theorem State.setPort_rspTrace (s : State) (x : Port) (p : PortState) : (s.setPort x p).rspTrace = s.rspTrace := by
  cases x <;> rfl

@[simp] theorem State.setPort_rxTrace (s : State) (x : Port) (p : PortState) : (s.setPort x p).rxTrace = s.rxTrace := by
  cases x <;> rfl

@[simp] theorem State.setPort_port (s : State) (x : Port) (p : PortState) : (s.setPort x p).port x = p := by
  cases x <;> rfl

@[simp] theorem State.setPort_f_f (s : State) (p : PortState) : (s.setPort .f p).f = p := rfl

@[simp] theorem State.setPort_f_a (s : State) (p : PortState) : (s.setPort .f p).a = s.a := rfl

@[simp] theorem State.setPort_a_a (s : State) (p : PortState) : (s.setPort .a p).a = p := rfl

@[simp] theorem State.setPort_a_f (s : State) (p : PortState) : (s.setPort .a p).f = s.f := rfl

theorem State.setPort_port_of_ne (s : State) {x y : Port} (p : PortState) (h : y ≠ x) :
    (s.setPort x p).port y = s.port y := by
  cases x <;> cases y <;> first | rfl | exact absurd rfl h

/-! ### `setCur` -/

@[simp] theorem State.setCur_rx (s : State) (p : PortState) : (s.setCur p).rx = s.rx := by
  simp [State.setCur]

@[simp] theorem State.setCur_tx (s : State) (p : PortState) : (s.setCur p).tx = s.tx := by
  simp [State.setCur]

@[simp] theorem State.setCur_escf (s : State) (p : PortState) : (s.setCur p).escf = s.escf := by
  simp [State.setCur]

@[simp] theorem State.setCur_cancelPend (s : State) (p : PortState) : (s.setCur p).cancelPend = s.cancelPend := by
  simp [State.setCur]

@[simp] theorem State.setCur_ctrl (s : State) (p : PortState) : (s.setCur p).ctrl = s.ctrl := by
  simp [State.setCur]

@[simp] theorem State.setCur_insvc (s : State) (p : PortState) : (s.setCur p).insvc = s.insvc := by
  simp [State.setCur]

@[simp] theorem State.setCur_sm (s : State) (p : PortState) : (s.setCur p).sm = s.sm := by
  simp [State.setCur]

@[simp] theorem State.setCur_cfg (s : State) (p : PortState) : (s.setCur p).cfg = s.cfg := by
  simp [State.setCur]

@[simp] theorem State.setCur_script (s : State) (p : PortState) : (s.setCur p).script = s.script := by
  simp [State.setCur]

@[simp] theorem State.setCur_txTrace (s : State) (p : PortState) : (s.setCur p).txTrace = s.txTrace := by
  simp [State.setCur]

@[simp] theorem State.setCur_cancelCount (s : State) (p : PortState) : (s.setCur p).cancelCount = s.cancelCount := by
  simp [State.setCur]

@[simp] theorem State.setCur_rspTrace (s : State) (p : PortState) : (s.setCur p).rspTrace = s.rspTrace := by
  simp [State.setCur]

@[simp] theorem State.setCur_rxTrace (s : State) (p : PortState) : (s.setCur p).rxTrace = s.rxTrace := by
  simp [State.setCur]

/-! ### `goto` -/

@[simp] theorem State.goto_rx (s : State) (k : BitVec 4) : (s.goto k).rx = s.rx := by
  simp [State.goto]

@[simp] theorem State.goto_tx (s : State) (k : BitVec 4) : (s.goto k).tx = s.tx := by
  simp [State.goto]

@[simp] theorem State.goto_escf (s : State) (k : BitVec 4) : (s.goto k).escf = s.escf := by
  simp [State.goto]

@[simp] theorem State.goto_cancelPend (s : State) (k : BitVec 4) : (s.goto k).cancelPend = s.cancelPend := by
  simp [State.goto]

@[simp] theorem State.goto_ctrl (s : State) (k : BitVec 4) : (s.goto k).ctrl = s.ctrl := by
  simp [State.goto]

@[simp] theorem State.goto_insvc (s : State) (k : BitVec 4) : (s.goto k).insvc = s.insvc := by
  simp [State.goto]

@[simp] theorem State.goto_sm (s : State) (k : BitVec 4) : (s.goto k).sm = s.sm := by
  simp [State.goto]

@[simp] theorem State.goto_cfg (s : State) (k : BitVec 4) : (s.goto k).cfg = s.cfg := by
  simp [State.goto]

@[simp] theorem State.goto_script (s : State) (k : BitVec 4) : (s.goto k).script = s.script := by
  simp [State.goto]

@[simp] theorem State.goto_txTrace (s : State) (k : BitVec 4) : (s.goto k).txTrace = s.txTrace := by
  simp [State.goto]

@[simp] theorem State.goto_cancelCount (s : State) (k : BitVec 4) : (s.goto k).cancelCount = s.cancelCount := by
  simp [State.goto]

@[simp] theorem State.goto_rspTrace (s : State) (k : BitVec 4) : (s.goto k).rspTrace = s.rspTrace := by
  simp [State.goto]

@[simp] theorem State.goto_rxTrace (s : State) (k : BitVec 4) : (s.goto k).rxTrace = s.rxTrace := by
  simp [State.goto]

/-! ### `respond` -/

@[simp] theorem State.respond_rx (s : State) (w : Word) : (s.respond w).rx = s.rx := by
  simp [State.respond]

@[simp] theorem State.respond_tx (s : State) (w : Word) : (s.respond w).tx = s.tx := by
  simp [State.respond]

@[simp] theorem State.respond_escf (s : State) (w : Word) : (s.respond w).escf = s.escf := by
  simp [State.respond]

@[simp] theorem State.respond_cancelPend (s : State) (w : Word) : (s.respond w).cancelPend = s.cancelPend := by
  simp [State.respond]

@[simp] theorem State.respond_ctrl (s : State) (w : Word) : (s.respond w).ctrl = s.ctrl := by
  simp [State.respond]

@[simp] theorem State.respond_insvc (s : State) (w : Word) : (s.respond w).insvc = s.insvc := by
  simp [State.respond]

@[simp] theorem State.respond_sm (s : State) (w : Word) : (s.respond w).sm = s.sm := by
  simp [State.respond]

@[simp] theorem State.respond_cfg (s : State) (w : Word) : (s.respond w).cfg = s.cfg := by
  simp [State.respond]

@[simp] theorem State.respond_script (s : State) (w : Word) : (s.respond w).script = s.script := by
  simp [State.respond]

@[simp] theorem State.respond_txTrace (s : State) (w : Word) : (s.respond w).txTrace = s.txTrace := by
  simp [State.respond]

@[simp] theorem State.respond_cancelCount (s : State) (w : Word) : (s.respond w).cancelCount = s.cancelCount := by
  simp [State.respond]

@[simp] theorem State.respond_rxTrace (s : State) (w : Word) : (s.respond w).rxTrace = s.rxTrace := by
  simp [State.respond]

@[simp] theorem State.respond_rspTrace (s : State) (w : Word) :
    (s.respond w).rspTrace = s.rspTrace ++ [(s.stepping, w)] := rfl

/-! ### `acceptWord` -/

@[simp] theorem State.acceptWord_rx (s : State) (x : Port) (w : Word) : (s.acceptWord x w).rx = s.rx := by
  simp [State.acceptWord]

@[simp] theorem State.acceptWord_tx (s : State) (x : Port) (w : Word) : (s.acceptWord x w).tx = s.tx := by
  simp [State.acceptWord]

@[simp] theorem State.acceptWord_escf (s : State) (x : Port) (w : Word) : (s.acceptWord x w).escf = s.escf := by
  simp [State.acceptWord]

@[simp] theorem State.acceptWord_cancelPend (s : State) (x : Port) (w : Word) : (s.acceptWord x w).cancelPend = s.cancelPend := by
  simp [State.acceptWord]

@[simp] theorem State.acceptWord_ctrl (s : State) (x : Port) (w : Word) : (s.acceptWord x w).ctrl = s.ctrl := by
  simp [State.acceptWord]

@[simp] theorem State.acceptWord_insvc (s : State) (x : Port) (w : Word) : (s.acceptWord x w).insvc = s.insvc := by
  simp [State.acceptWord]

@[simp] theorem State.acceptWord_sm (s : State) (x : Port) (w : Word) : (s.acceptWord x w).sm = s.sm := by
  simp [State.acceptWord]

@[simp] theorem State.acceptWord_cfg (s : State) (x : Port) (w : Word) : (s.acceptWord x w).cfg = s.cfg := by
  simp [State.acceptWord]

@[simp] theorem State.acceptWord_script (s : State) (x : Port) (w : Word) : (s.acceptWord x w).script = s.script := by
  simp [State.acceptWord]

@[simp] theorem State.acceptWord_txTrace (s : State) (x : Port) (w : Word) : (s.acceptWord x w).txTrace = s.txTrace := by
  simp [State.acceptWord]

@[simp] theorem State.acceptWord_cancelCount (s : State) (x : Port) (w : Word) : (s.acceptWord x w).cancelCount = s.cancelCount := by
  simp [State.acceptWord]

@[simp] theorem State.acceptWord_rspTrace (s : State) (x : Port) (w : Word) : (s.acceptWord x w).rspTrace = s.rspTrace := by
  simp [State.acceptWord]

@[simp] theorem State.acceptWord_rxTrace (s : State) (x : Port) (w : Word) : (s.acceptWord x w).rxTrace = s.rxTrace := by
  simp [State.acceptWord]

/-! ### `setRing` -/

@[simp] theorem State.setRing_escf (s : State) (b : RingId) (r : Ring) : (s.setRing b r).escf = s.escf := by
  cases b <;> rfl

@[simp] theorem State.setRing_cancelPend (s : State) (b : RingId) (r : Ring) : (s.setRing b r).cancelPend = s.cancelPend := by
  cases b <;> rfl

@[simp] theorem State.setRing_ctrl (s : State) (b : RingId) (r : Ring) : (s.setRing b r).ctrl = s.ctrl := by
  cases b <;> rfl

@[simp] theorem State.setRing_insvc (s : State) (b : RingId) (r : Ring) : (s.setRing b r).insvc = s.insvc := by
  cases b <;> rfl

@[simp] theorem State.setRing_f (s : State) (b : RingId) (r : Ring) : (s.setRing b r).f = s.f := by
  cases b <;> rfl

@[simp] theorem State.setRing_a (s : State) (b : RingId) (r : Ring) : (s.setRing b r).a = s.a := by
  cases b <;> rfl

@[simp] theorem State.setRing_sm (s : State) (b : RingId) (r : Ring) : (s.setRing b r).sm = s.sm := by
  cases b <;> rfl

@[simp] theorem State.setRing_cfg (s : State) (b : RingId) (r : Ring) : (s.setRing b r).cfg = s.cfg := by
  cases b <;> rfl

@[simp] theorem State.setRing_script (s : State) (b : RingId) (r : Ring) : (s.setRing b r).script = s.script := by
  cases b <;> rfl

@[simp] theorem State.setRing_txTrace (s : State) (b : RingId) (r : Ring) : (s.setRing b r).txTrace = s.txTrace := by
  cases b <;> rfl

@[simp] theorem State.setRing_cancelCount (s : State) (b : RingId) (r : Ring) : (s.setRing b r).cancelCount = s.cancelCount := by
  cases b <;> rfl

@[simp] theorem State.setRing_rspTrace (s : State) (b : RingId) (r : Ring) : (s.setRing b r).rspTrace = s.rspTrace := by
  cases b <;> rfl

@[simp] theorem State.setRing_rxTrace (s : State) (b : RingId) (r : Ring) : (s.setRing b r).rxTrace = s.rxTrace := by
  cases b <;> rfl

@[simp] theorem State.setRing_ring (s : State) (b : RingId) (r : Ring) : (s.setRing b r).ring b = r := by
  cases b <;> rfl

@[simp] theorem State.setRing_rx_rx (s : State) (r : Ring) : (s.setRing .rx r).rx = r := rfl

@[simp] theorem State.setRing_rx_tx (s : State) (r : Ring) : (s.setRing .rx r).tx = s.tx := rfl

@[simp] theorem State.setRing_tx_tx (s : State) (r : Ring) : (s.setRing .tx r).tx = r := rfl

@[simp] theorem State.setRing_tx_rx (s : State) (r : Ring) : (s.setRing .tx r).rx = s.rx := rfl

theorem State.setRing_ring_of_ne (s : State) {b c : RingId} (r : Ring) (h : c ≠ b) :
    (s.setRing b r).ring c = s.ring c := by
  cases b <;> cases c <;> first | rfl | exact absurd rfl h

/-! ### `ppub` -/

@[simp] theorem State.ppub_escf (s : State) (b : RingId) : (s.ppub b).escf = s.escf := by
  simp [State.ppub]

@[simp] theorem State.ppub_cancelPend (s : State) (b : RingId) : (s.ppub b).cancelPend = s.cancelPend := by
  simp [State.ppub]

@[simp] theorem State.ppub_ctrl (s : State) (b : RingId) : (s.ppub b).ctrl = s.ctrl := by
  simp [State.ppub]

@[simp] theorem State.ppub_insvc (s : State) (b : RingId) : (s.ppub b).insvc = s.insvc := by
  simp [State.ppub]

@[simp] theorem State.ppub_f (s : State) (b : RingId) : (s.ppub b).f = s.f := by
  simp [State.ppub]

@[simp] theorem State.ppub_a (s : State) (b : RingId) : (s.ppub b).a = s.a := by
  simp [State.ppub]

@[simp] theorem State.ppub_sm (s : State) (b : RingId) : (s.ppub b).sm = s.sm := by
  simp [State.ppub]

@[simp] theorem State.ppub_cfg (s : State) (b : RingId) : (s.ppub b).cfg = s.cfg := by
  simp [State.ppub]

@[simp] theorem State.ppub_script (s : State) (b : RingId) : (s.ppub b).script = s.script := by
  simp [State.ppub]

@[simp] theorem State.ppub_txTrace (s : State) (b : RingId) : (s.ppub b).txTrace = s.txTrace := by
  simp [State.ppub]

@[simp] theorem State.ppub_cancelCount (s : State) (b : RingId) : (s.ppub b).cancelCount = s.cancelCount := by
  simp [State.ppub]

@[simp] theorem State.ppub_rspTrace (s : State) (b : RingId) : (s.ppub b).rspTrace = s.rspTrace := by
  simp [State.ppub]

@[simp] theorem State.ppub_rxTrace (s : State) (b : RingId) : (s.ppub b).rxTrace = s.rxTrace := by
  simp [State.ppub]

/-! ### `crel` -/

@[simp] theorem State.crel_escf (s : State) (b : RingId) : (s.crel b).escf = s.escf := by
  simp [State.crel]

@[simp] theorem State.crel_cancelPend (s : State) (b : RingId) : (s.crel b).cancelPend = s.cancelPend := by
  simp [State.crel]

@[simp] theorem State.crel_ctrl (s : State) (b : RingId) : (s.crel b).ctrl = s.ctrl := by
  simp [State.crel]

@[simp] theorem State.crel_insvc (s : State) (b : RingId) : (s.crel b).insvc = s.insvc := by
  simp [State.crel]

@[simp] theorem State.crel_f (s : State) (b : RingId) : (s.crel b).f = s.f := by
  simp [State.crel]

@[simp] theorem State.crel_a (s : State) (b : RingId) : (s.crel b).a = s.a := by
  simp [State.crel]

@[simp] theorem State.crel_sm (s : State) (b : RingId) : (s.crel b).sm = s.sm := by
  simp [State.crel]

@[simp] theorem State.crel_cfg (s : State) (b : RingId) : (s.crel b).cfg = s.cfg := by
  simp [State.crel]

@[simp] theorem State.crel_script (s : State) (b : RingId) : (s.crel b).script = s.script := by
  simp [State.crel]

@[simp] theorem State.crel_txTrace (s : State) (b : RingId) : (s.crel b).txTrace = s.txTrace := by
  simp [State.crel]

@[simp] theorem State.crel_cancelCount (s : State) (b : RingId) : (s.crel b).cancelCount = s.cancelCount := by
  simp [State.crel]

@[simp] theorem State.crel_rspTrace (s : State) (b : RingId) : (s.crel b).rspTrace = s.rspTrace := by
  simp [State.crel]

@[simp] theorem State.crel_rxTrace (s : State) (b : RingId) : (s.crel b).rxTrace = s.rxTrace := by
  simp [State.crel]

/-! ### `synStep` -/

@[simp] theorem State.synStep_escf (s : State) (b : RingId) (p : PtrSel) (k : Nat) : (s.synStep b p k).escf = s.escf := by
  simp [State.synStep]

@[simp] theorem State.synStep_cancelPend (s : State) (b : RingId) (p : PtrSel) (k : Nat) : (s.synStep b p k).cancelPend = s.cancelPend := by
  simp [State.synStep]

@[simp] theorem State.synStep_ctrl (s : State) (b : RingId) (p : PtrSel) (k : Nat) : (s.synStep b p k).ctrl = s.ctrl := by
  simp [State.synStep]

@[simp] theorem State.synStep_insvc (s : State) (b : RingId) (p : PtrSel) (k : Nat) : (s.synStep b p k).insvc = s.insvc := by
  simp [State.synStep]

@[simp] theorem State.synStep_f (s : State) (b : RingId) (p : PtrSel) (k : Nat) : (s.synStep b p k).f = s.f := by
  simp [State.synStep]

@[simp] theorem State.synStep_a (s : State) (b : RingId) (p : PtrSel) (k : Nat) : (s.synStep b p k).a = s.a := by
  simp [State.synStep]

@[simp] theorem State.synStep_sm (s : State) (b : RingId) (p : PtrSel) (k : Nat) : (s.synStep b p k).sm = s.sm := by
  simp [State.synStep]

@[simp] theorem State.synStep_cfg (s : State) (b : RingId) (p : PtrSel) (k : Nat) : (s.synStep b p k).cfg = s.cfg := by
  simp [State.synStep]

@[simp] theorem State.synStep_script (s : State) (b : RingId) (p : PtrSel) (k : Nat) : (s.synStep b p k).script = s.script := by
  simp [State.synStep]

@[simp] theorem State.synStep_txTrace (s : State) (b : RingId) (p : PtrSel) (k : Nat) : (s.synStep b p k).txTrace = s.txTrace := by
  simp [State.synStep]

@[simp] theorem State.synStep_cancelCount (s : State) (b : RingId) (p : PtrSel) (k : Nat) : (s.synStep b p k).cancelCount = s.cancelCount := by
  simp [State.synStep]

@[simp] theorem State.synStep_rspTrace (s : State) (b : RingId) (p : PtrSel) (k : Nat) : (s.synStep b p k).rspTrace = s.rspTrace := by
  simp [State.synStep]

@[simp] theorem State.synStep_rxTrace (s : State) (b : RingId) (p : PtrSel) (k : Nat) : (s.synStep b p k).rxTrace = s.rxTrace := by
  simp [State.synStep]

/-! ### `enter` -/

@[simp] theorem State.enter_rx (s : State) : (s.enter).rx = s.rx := by
  unfold State.enter; split <;> rfl

@[simp] theorem State.enter_tx (s : State) : (s.enter).tx = s.tx := by
  unfold State.enter; split <;> rfl

@[simp] theorem State.enter_escf (s : State) : (s.enter).escf = s.escf := by
  unfold State.enter; split <;> rfl

@[simp] theorem State.enter_cancelPend (s : State) : (s.enter).cancelPend = s.cancelPend := by
  unfold State.enter; split <;> rfl

@[simp] theorem State.enter_insvc (s : State) : (s.enter).insvc = s.insvc := by
  unfold State.enter; split <;> rfl

@[simp] theorem State.enter_f (s : State) : (s.enter).f = s.f := by
  unfold State.enter; split <;> rfl

@[simp] theorem State.enter_a (s : State) : (s.enter).a = s.a := by
  unfold State.enter; split <;> rfl

@[simp] theorem State.enter_cfg (s : State) : (s.enter).cfg = s.cfg := by
  unfold State.enter; split <;> rfl

@[simp] theorem State.enter_script (s : State) : (s.enter).script = s.script := by
  unfold State.enter; split <;> rfl

@[simp] theorem State.enter_txTrace (s : State) : (s.enter).txTrace = s.txTrace := by
  unfold State.enter; split <;> rfl

@[simp] theorem State.enter_cancelCount (s : State) : (s.enter).cancelCount = s.cancelCount := by
  unfold State.enter; split <;> rfl

@[simp] theorem State.enter_rspTrace (s : State) : (s.enter).rspTrace = s.rspTrace := by
  unfold State.enter; split <;> rfl

@[simp] theorem State.enter_rxTrace (s : State) : (s.enter).rxTrace = s.rxTrace := by
  unfold State.enter; split <;> rfl

/-! ### `exit` -/

@[simp] theorem State.exit_rx (s : State) : (s.exit).rx = s.rx := by
  unfold State.exit; split <;> rfl

@[simp] theorem State.exit_tx (s : State) : (s.exit).tx = s.tx := by
  unfold State.exit; split <;> rfl

@[simp] theorem State.exit_escf (s : State) : (s.exit).escf = s.escf := by
  unfold State.exit; split <;> rfl

@[simp] theorem State.exit_cancelPend (s : State) : (s.exit).cancelPend = s.cancelPend := by
  unfold State.exit; split <;> rfl

@[simp] theorem State.exit_insvc (s : State) : (s.exit).insvc = s.insvc := by
  unfold State.exit; split <;> rfl

@[simp] theorem State.exit_f (s : State) : (s.exit).f = s.f := by
  unfold State.exit; split <;> rfl

@[simp] theorem State.exit_a (s : State) : (s.exit).a = s.a := by
  unfold State.exit; split <;> rfl

@[simp] theorem State.exit_sm (s : State) : (s.exit).sm = s.sm := by
  unfold State.exit; split <;> rfl

@[simp] theorem State.exit_cfg (s : State) : (s.exit).cfg = s.cfg := by
  unfold State.exit; split <;> rfl

@[simp] theorem State.exit_script (s : State) : (s.exit).script = s.script := by
  unfold State.exit; split <;> rfl

@[simp] theorem State.exit_txTrace (s : State) : (s.exit).txTrace = s.txTrace := by
  unfold State.exit; split <;> rfl

@[simp] theorem State.exit_cancelCount (s : State) : (s.exit).cancelCount = s.cancelCount := by
  unfold State.exit; split <;> rfl

@[simp] theorem State.exit_rspTrace (s : State) : (s.exit).rspTrace = s.rspTrace := by
  unfold State.exit; split <;> rfl

@[simp] theorem State.exit_rxTrace (s : State) : (s.exit).rxTrace = s.rxTrace := by
  unfold State.exit; split <;> rfl

/-! ### `kick` -/

@[simp] theorem State.kick_rx (s : State) : (s.kick).rx = s.rx := rfl

@[simp] theorem State.kick_tx (s : State) : (s.kick).tx = s.tx := rfl

@[simp] theorem State.kick_escf (s : State) : (s.kick).escf = s.escf := rfl

@[simp] theorem State.kick_cancelPend (s : State) : (s.kick).cancelPend = s.cancelPend := rfl

@[simp] theorem State.kick_insvc (s : State) : (s.kick).insvc = s.insvc := rfl

@[simp] theorem State.kick_f (s : State) : (s.kick).f = s.f := rfl

@[simp] theorem State.kick_a (s : State) : (s.kick).a = s.a := rfl

@[simp] theorem State.kick_sm (s : State) : (s.kick).sm = s.sm := rfl

@[simp] theorem State.kick_cfg (s : State) : (s.kick).cfg = s.cfg := rfl

@[simp] theorem State.kick_script (s : State) : (s.kick).script = s.script := rfl

@[simp] theorem State.kick_txTrace (s : State) : (s.kick).txTrace = s.txTrace := rfl

@[simp] theorem State.kick_cancelCount (s : State) : (s.kick).cancelCount = s.cancelCount := rfl

@[simp] theorem State.kick_rspTrace (s : State) : (s.kick).rspTrace = s.rspTrace := rfl

@[simp] theorem State.kick_rxTrace (s : State) : (s.kick).rxTrace = s.rxTrace := rfl

/-! ### `raiseCancel` -/

@[simp] theorem State.raiseCancel_rx (s : State) : (s.raiseCancel).rx = s.rx := rfl

@[simp] theorem State.raiseCancel_tx (s : State) : (s.raiseCancel).tx = s.tx := rfl

@[simp] theorem State.raiseCancel_escf (s : State) : (s.raiseCancel).escf = s.escf := rfl

@[simp] theorem State.raiseCancel_ctrl (s : State) : (s.raiseCancel).ctrl = s.ctrl := rfl

@[simp] theorem State.raiseCancel_insvc (s : State) : (s.raiseCancel).insvc = s.insvc := rfl

@[simp] theorem State.raiseCancel_f (s : State) : (s.raiseCancel).f = s.f := rfl

@[simp] theorem State.raiseCancel_a (s : State) : (s.raiseCancel).a = s.a := rfl

@[simp] theorem State.raiseCancel_sm (s : State) : (s.raiseCancel).sm = s.sm := rfl

@[simp] theorem State.raiseCancel_cfg (s : State) : (s.raiseCancel).cfg = s.cfg := rfl

@[simp] theorem State.raiseCancel_script (s : State) : (s.raiseCancel).script = s.script := rfl

@[simp] theorem State.raiseCancel_txTrace (s : State) : (s.raiseCancel).txTrace = s.txTrace := rfl

@[simp] theorem State.raiseCancel_rspTrace (s : State) : (s.raiseCancel).rspTrace = s.rspTrace := rfl

@[simp] theorem State.raiseCancel_rxTrace (s : State) : (s.raiseCancel).rxTrace = s.rxTrace := rfl

/-! ### `sessionEnter` -/

@[simp] theorem State.sessionEnter_rx (s : State) : (s.sessionEnter).rx = s.rx := rfl

@[simp] theorem State.sessionEnter_tx (s : State) : (s.sessionEnter).tx = s.tx := rfl

@[simp] theorem State.sessionEnter_escf (s : State) : (s.sessionEnter).escf = s.escf := rfl

@[simp] theorem State.sessionEnter_cancelPend (s : State) : (s.sessionEnter).cancelPend = s.cancelPend := rfl

@[simp] theorem State.sessionEnter_ctrl (s : State) : (s.sessionEnter).ctrl = s.ctrl := rfl

@[simp] theorem State.sessionEnter_f (s : State) : (s.sessionEnter).f = s.f := rfl

@[simp] theorem State.sessionEnter_a (s : State) : (s.sessionEnter).a = s.a := rfl

@[simp] theorem State.sessionEnter_sm (s : State) : (s.sessionEnter).sm = s.sm := rfl

@[simp] theorem State.sessionEnter_cfg (s : State) : (s.sessionEnter).cfg = s.cfg := rfl

@[simp] theorem State.sessionEnter_script (s : State) : (s.sessionEnter).script = s.script := rfl

@[simp] theorem State.sessionEnter_txTrace (s : State) : (s.sessionEnter).txTrace = s.txTrace := rfl

@[simp] theorem State.sessionEnter_cancelCount (s : State) : (s.sessionEnter).cancelCount = s.cancelCount := rfl

@[simp] theorem State.sessionEnter_rspTrace (s : State) : (s.sessionEnter).rspTrace = s.rspTrace := rfl

@[simp] theorem State.sessionEnter_rxTrace (s : State) : (s.sessionEnter).rxTrace = s.rxTrace := rfl

/-! ### `sessionLeave` -/

@[simp] theorem State.sessionLeave_rx (s : State) : (s.sessionLeave).rx = s.rx := rfl

@[simp] theorem State.sessionLeave_tx (s : State) : (s.sessionLeave).tx = s.tx := rfl

@[simp] theorem State.sessionLeave_escf (s : State) : (s.sessionLeave).escf = s.escf := rfl

@[simp] theorem State.sessionLeave_cancelPend (s : State) : (s.sessionLeave).cancelPend = s.cancelPend := rfl

@[simp] theorem State.sessionLeave_ctrl (s : State) : (s.sessionLeave).ctrl = s.ctrl := rfl

@[simp] theorem State.sessionLeave_f (s : State) : (s.sessionLeave).f = s.f := rfl

@[simp] theorem State.sessionLeave_a (s : State) : (s.sessionLeave).a = s.a := rfl

@[simp] theorem State.sessionLeave_sm (s : State) : (s.sessionLeave).sm = s.sm := rfl

@[simp] theorem State.sessionLeave_cfg (s : State) : (s.sessionLeave).cfg = s.cfg := rfl

@[simp] theorem State.sessionLeave_script (s : State) : (s.sessionLeave).script = s.script := rfl

@[simp] theorem State.sessionLeave_txTrace (s : State) : (s.sessionLeave).txTrace = s.txTrace := rfl

@[simp] theorem State.sessionLeave_cancelCount (s : State) : (s.sessionLeave).cancelCount = s.cancelCount := rfl

@[simp] theorem State.sessionLeave_rspTrace (s : State) : (s.sessionLeave).rspTrace = s.rspTrace := rfl

@[simp] theorem State.sessionLeave_rxTrace (s : State) : (s.sessionLeave).rxTrace = s.rxTrace := rfl

/-! ### `quirkStep` -/

@[simp] theorem State.quirkStep_rx (s : State) (e : Enable) : (s.quirkStep e).rx = s.rx := by
  cases e <;> rfl

@[simp] theorem State.quirkStep_tx (s : State) (e : Enable) : (s.quirkStep e).tx = s.tx := by
  cases e <;> rfl

@[simp] theorem State.quirkStep_escf (s : State) (e : Enable) : (s.quirkStep e).escf = s.escf := by
  cases e <;> rfl

@[simp] theorem State.quirkStep_cancelPend (s : State) (e : Enable) : (s.quirkStep e).cancelPend = s.cancelPend := by
  cases e <;> rfl

@[simp] theorem State.quirkStep_insvc (s : State) (e : Enable) : (s.quirkStep e).insvc = s.insvc := by
  cases e <;> rfl

@[simp] theorem State.quirkStep_f (s : State) (e : Enable) : (s.quirkStep e).f = s.f := by
  cases e <;> rfl

@[simp] theorem State.quirkStep_a (s : State) (e : Enable) : (s.quirkStep e).a = s.a := by
  cases e <;> rfl

@[simp] theorem State.quirkStep_sm (s : State) (e : Enable) : (s.quirkStep e).sm = s.sm := by
  cases e <;> rfl

@[simp] theorem State.quirkStep_cfg (s : State) (e : Enable) : (s.quirkStep e).cfg = s.cfg := by
  cases e <;> rfl

@[simp] theorem State.quirkStep_script (s : State) (e : Enable) : (s.quirkStep e).script = s.script := by
  cases e <;> rfl

@[simp] theorem State.quirkStep_txTrace (s : State) (e : Enable) : (s.quirkStep e).txTrace = s.txTrace := by
  cases e <;> rfl

@[simp] theorem State.quirkStep_cancelCount (s : State) (e : Enable) : (s.quirkStep e).cancelCount = s.cancelCount := by
  cases e <;> rfl

@[simp] theorem State.quirkStep_rspTrace (s : State) (e : Enable) : (s.quirkStep e).rspTrace = s.rspTrace := by
  cases e <;> rfl

@[simp] theorem State.quirkStep_rxTrace (s : State) (e : Enable) : (s.quirkStep e).rxTrace = s.rxTrace := by
  cases e <;> rfl

/-! ### `popScript` -/

@[simp] theorem State.popScript_rx (s : State) : (s.popScript).rx = s.rx := rfl

@[simp] theorem State.popScript_tx (s : State) : (s.popScript).tx = s.tx := rfl

@[simp] theorem State.popScript_escf (s : State) : (s.popScript).escf = s.escf := rfl

@[simp] theorem State.popScript_cancelPend (s : State) : (s.popScript).cancelPend = s.cancelPend := rfl

@[simp] theorem State.popScript_ctrl (s : State) : (s.popScript).ctrl = s.ctrl := rfl

@[simp] theorem State.popScript_insvc (s : State) : (s.popScript).insvc = s.insvc := rfl

@[simp] theorem State.popScript_f (s : State) : (s.popScript).f = s.f := rfl

@[simp] theorem State.popScript_a (s : State) : (s.popScript).a = s.a := rfl

@[simp] theorem State.popScript_sm (s : State) : (s.popScript).sm = s.sm := rfl

@[simp] theorem State.popScript_cfg (s : State) : (s.popScript).cfg = s.cfg := rfl

@[simp] theorem State.popScript_txTrace (s : State) : (s.popScript).txTrace = s.txTrace := rfl

@[simp] theorem State.popScript_cancelCount (s : State) : (s.popScript).cancelCount = s.cancelCount := rfl

@[simp] theorem State.popScript_rspTrace (s : State) : (s.popScript).rspTrace = s.rspTrace := rfl

@[simp] theorem State.popScript_rxTrace (s : State) : (s.popScript).rxTrace = s.rxTrace := rfl

@[simp] theorem State.popScript_script (s : State) : s.popScript.script = s.script.tail := rfl

end Sys2Proof.Machine
end

