-- ==== Sys2Proof/Laws/Ops.lean ====
section
/-! SUPPORT. One lemma per shared operation that says once everything it can do. -/

namespace Sys2Proof.Machine

@[simp] theorem onOk_ok {α : Type} (x : α) (k : α → Result) : onOk (.ok x) k = k x := rfl

@[simp] theorem onOk_error {α : Type} (e : Fault) (k : α → Result) : onOk (.error e) k = .fault e := rfl

/-- A sequel runs only on what its operation found. -/
theorem onOk_next {α : Type} {r : Except Fault α} {k : α → Result} {t : State} (h : onOk r k = .next t) :
    ∃ x, r = .ok x ∧ k x = .next t := by
  cases r with
  | ok x => exact ⟨x, rfl, h⟩
  | error e => cases h

/-! ### Ports -/

/-- Only `insvc` says which port may step. -/
theorem State.stepping_congr {s t : State} (h : t.insvc = s.insvc) : t.stepping = s.stepping := by
  unfold State.stepping
  rw [h]

theorem State.stepping_eq_f {s : State} : s.stepping = .f ↔ s.insvc = .none := by
  unfold State.stepping
  split <;> simp [*]

theorem State.stepping_eq_a {s : State} : s.stepping = .a ↔ s.insvc = .a := by
  unfold State.stepping
  split <;> simp [*]

@[simp] theorem State.setPort_stepping (s : State) (x : Port) (p : PortState) :
    (s.setPort x p).stepping = s.stepping := State.stepping_congr (by simp)

@[simp] theorem State.setCur_stepping (s : State) (p : PortState) : (s.setCur p).stepping = s.stepping :=
  State.stepping_congr (by simp)

@[simp] theorem State.goto_stepping (s : State) (k : BitVec 4) : (s.goto k).stepping = s.stepping :=
  State.stepping_congr (by simp)

@[simp] theorem State.respond_stepping (s : State) (w : Word) : (s.respond w).stepping = s.stepping :=
  State.stepping_congr (by simp)

@[simp] theorem State.setCur_cur (s : State) (p : PortState) : (s.setCur p).cur = p := by
  simp [State.cur, State.setCur]

@[simp] theorem State.goto_cur (s : State) (k : BitVec 4) : (s.goto k).cur = { s.cur with upc := k } := by
  simp [State.goto]

/-- What `respond` leaves in the latches of the port that answers (00_scope.md R16). -/
@[simp] theorem State.respond_cur (s : State) (w : Word) :
    (s.respond w).cur = { s.cur with rsp := w, busy := false } := by
  have h : (s.respond w).cur = (s.setCur { s.cur with rsp := w, busy := false }).cur := rfl
  rw [h, State.setCur_cur]

/-- A port update leaves the other port alone. -/
@[simp] theorem State.setPort_port_other (s : State) (x : Port) (p : PortState) :
    (s.setPort x p).port (match x with | .f => .a | .a => .f) = s.port (match x with | .f => .a | .a => .f) := by
  cases x <;> rfl

/-! ### Micro-programs -/

/-- A single-step command answers at u0 and nowhere else. -/
theorem single_next {s answer t : State} (h : single s answer = .next t) : s.cur.upc = 0 ∧ t = answer := by
  unfold single at h
  split at h
  · cases h
    exact ⟨BitVec.eq_of_toNat_eq (by assumption), rfl⟩
  · cases h

theorem single_zero {s : State} (answer : State) (h : s.cur.upc = 0) : single s answer = .next answer := by
  simp [single, h]

/-- PCHK goes on in one of its two ways, unless port A meets an open push of port F (60_exceptions.md R230). -/
theorem State.pchk_next {s u v t : State} (h : s.pchk u v = .next t) :
    ¬(s.stepping = .a ∧ s.openP = true) ∧ ((s.fullP .tx = true ∧ t = u) ∨ (s.fullP .tx = false ∧ t = v)) := by
  unfold State.pchk at h
  split at h
  · cases h
  · refine ⟨by assumption, ?_⟩
    injection h with h
    subst h
    split <;> simp_all

/-- CCHK goes on in one of its two ways, unless port A meets an open pop of port F (60_exceptions.md R230). -/
theorem State.cchk_next {s u v t : State} (h : s.cchk u v = .next t) :
    ¬(s.stepping = .a ∧ s.openC = true) ∧ ((s.emptyC .rx = true ∧ t = u) ∨ (s.emptyC .rx = false ∧ t = v)) := by
  unfold State.cchk at h
  split at h
  · cases h
  · refine ⟨by assumption, ?_⟩
    injection h with h
    subst h
    split <;> simp_all

/-! ### Storage -/

/-- A load finds the byte of a slot that exists and has been written. -/
theorem State.memRead_ok {s : State} {b : RingId} {i : Nat} {v : Byte} :
    s.memRead b i = .ok v ↔ i < s.cap b ∧ Memory.read (s.ring b).storage i = some v := by
  unfold State.memRead
  split
  · split <;> simp_all
  · simp_all

/-- A store changes one slot of one ring. -/
theorem State.memWrite_ok {s t : State} {b : RingId} {i : Nat} {v : Byte} :
    s.memWrite b i v = .ok t ↔
      i < s.cap b ∧ t = s.setRing b { s.ring b with storage := Memory.write (s.ring b).storage i v } := by
  unfold State.memWrite
  split
  · simp only [Except.ok.injEq]
    constructor
    · intro h; exact ⟨by assumption, h.symm⟩
    · intro h; exact h.2.symm
  · simp_all

/-- CLOD and PSTO of a port: what they leave. -/
theorem State.loadT_next {s t : State} {b : RingId} {k : BitVec 4} (h : s.loadT b k = .next t) :
    ∃ v, (s.ring b).tail < s.cap b ∧ Memory.read (s.ring b).storage (s.ring b).tail = some v ∧
      t = (s.setCur { s.cur with t := v }).goto k := by
  obtain ⟨v, hv, ht⟩ := onOk_next h
  obtain ⟨h1, h2⟩ := State.memRead_ok.mp hv
  injection ht with ht
  exact ⟨v, h1, h2, ht.symm⟩

theorem State.storeThen_next {s t : State} {b : RingId} {v : Byte} {k : BitVec 4} (h : s.storeThen b v k = .next t) :
    (s.ring b).head < s.cap b ∧
      t = (s.setRing b { s.ring b with storage := Memory.write (s.ring b).storage (s.ring b).head v }).goto k := by
  obtain ⟨u, hu, ht⟩ := onOk_next h
  obtain ⟨h1, h2⟩ := State.memWrite_ok.mp hu
  injection ht with ht
  subst h2
  exact ⟨h1, ht.symm⟩

/-- `push_atomic`: a full ring is left as it is; else the byte is stored at `head` and published (40_ring.md R134). -/
theorem State.pushAtomic_ok {s t : State} {b : RingId} {v : Byte} {r : Bool} (h : s.pushAtomic b v = .ok (r, t)) :
    (s.fullP b = true ∧ r = false ∧ t = s) ∨
    (s.fullP b = false ∧ r = true ∧ (s.ring b).head < s.cap b ∧
      t = (s.setRing b { s.ring b with storage := Memory.write (s.ring b).storage (s.ring b).head v }).ppub b) := by
  unfold State.pushAtomic at h
  split at h
  · cases h
    exact .inl ⟨by assumption, rfl, rfl⟩
  · rename_i hf
    split at h
    · rename_i u hu
      obtain ⟨h1, h2⟩ := State.memWrite_ok.mp hu
      cases h
      subst h2
      exact .inr ⟨by simpa using hf, rfl, h1, rfl⟩
    · cases h

/-- `pop_atomic`: an empty ring is left as it is; else the byte at `tail` is taken (40_ring.md R134). -/
theorem State.popAtomic_ok {s t : State} {b : RingId} {r : Option Byte} (h : s.popAtomic b = .ok (r, t)) :
    (s.emptyC b = true ∧ r = none ∧ t = s) ∨
    (∃ v, s.emptyC b = false ∧ r = some v ∧ (s.ring b).tail < s.cap b ∧
      Memory.read (s.ring b).storage (s.ring b).tail = some v ∧ t = s.crel b) := by
  unfold State.popAtomic at h
  split at h
  · cases h
    exact .inl ⟨by assumption, rfl, rfl⟩
  · rename_i hf
    split at h
    · rename_i v hv
      obtain ⟨h1, h2⟩ := State.memRead_ok.mp hv
      cases h
      exact .inr ⟨v, by simpa using hf, rfl, h1, h2, rfl⟩
    · cases h

/-! ### The filter -/

/-- The four cases of the filter (43_filter.md R191, R193). -/
theorem State.filter_cases (s : State) (c : Byte) :
    (s.escf = true ∧ c = s.cfg.cancelChar ∧ s.filter c = (.cancel, { s with escf := false }.raiseCancel)) ∨
    (s.escf = true ∧ c ≠ s.cfg.cancelChar ∧ s.filter c = (.lit c, { s with escf := false })) ∨
    (s.escf = false ∧ c = s.cfg.escChar ∧ s.filter c = (.none, { s with escf := true })) ∨
    (s.escf = false ∧ c ≠ s.cfg.escChar ∧ s.filter c = (.lit c, s)) := by
  unfold State.filter
  by_cases h : s.escf = true <;> by_cases h1 : c = s.cfg.cancelChar <;> by_cases h2 : c = s.cfg.escChar <;>
    simp [h, h1, h2] <;> simp_all

/-! ### The step -/

/-- Everything a step can do: refuse an ill-formed block, wait, skip a step that is not enabled, or perform one that is. -/
theorem State.advance_cases (s : State) :
    (s.nextEvent = none ∧ s.advance = .next s) ∨
    (∃ e, s.nextEvent = some e ∧ s.popScript.enabled e = false ∧ s.advance = .next s.popScript) ∨
    (∃ e, s.nextEvent = some e ∧ s.popScript.enabled e = true ∧ s.advance = s.popScript.perform e) := by
  unfold State.advance State.take
  cases h : s.nextEvent with
  | none => exact .inl ⟨rfl, rfl⟩
  | some e =>
    cases he : s.popScript.enabled e with
    | false => exact .inr (.inl ⟨e, rfl, he, by simp [he]⟩)
    | true => exact .inr (.inr ⟨e, rfl, he, by simp [he]⟩)

end Sys2Proof.Machine
end

