-- ==== Sys2Proof/Laws/PerInstr.lean ====
section
/-! SUPPORT. Facts about each command as syntax: its operand byte fits its format (30_encoding.md R91), and its word
carries its three fields in their places (R90). -/

namespace Sys2Proof.Laws

/-- The command is well formed and its word is `{op, 0000, d}`. -/
def Fields.Statement (i : Instr) : Prop :=
  i.wf = true ∧ Word.op (encode i) = i.opcode ∧ Word.zField (encode i) = 0 ∧ Word.d (encode i) = i.operand

theorem Fields.nop : Fields.Statement .nop := by unfold Fields.Statement; decide
theorem Fields.rd : Fields.Statement .rd := by unfold Fields.Statement; decide
theorem Fields.rxpop : Fields.Statement .rxpop := by unfold Fields.Statement; decide
theorem Fields.rxempty : Fields.Statement .rxempty := by unfold Fields.Statement; decide
theorem Fields.txfull : Fields.Statement .txfull := by unfold Fields.Statement; decide
theorem Fields.ctlr : Fields.Statement .ctlr := by unfold Fields.Statement; decide
theorem Fields.stat : Fields.Statement .stat := by unfold Fields.Statement; decide
theorem Fields.cack : Fields.Statement .cack := by unfold Fields.Statement; decide

/-- The three fields of a concatenated word. -/
theorem fields_of_append (op : BitVec 4) (d : Byte) :
    Word.op (op ++ (0 : BitVec 4) ++ d) = op ∧ Word.zField (op ++ (0 : BitVec 4) ++ d) = 0 ∧
      Word.d (op ++ (0 : BitVec 4) ++ d) = d := by
  have h (i : Nat) : BitVec.getLsbD (w := 16) (op ++ (0 : BitVec 4) ++ d) i
      = if i < 8 then d.getLsbD i else if i - 8 < 4 then false else op.getLsbD (i - 8 - 4) := by
    refine (BitVec.getLsbD_append (x := op ++ (0 : BitVec 4)) (y := d) (i := i)).trans ?_
    split
    · rfl
    · exact (BitVec.getLsbD_append (x := op) (y := (0 : BitVec 4)) (i := i - 8)).trans (by simp)
  refine ⟨?_, ?_, ?_⟩ <;> refine BitVec.eq_of_getLsbD_eq fun i hi => ?_ <;>
    simp only [Word.op, Word.zField, Word.d, BitVec.getLsbD_extractLsb', hi, h] <;>
    interval_cases i <;> simp

theorem Fields.wr (d : Byte) : Fields.Statement (.wr d) := ⟨rfl, fields_of_append _ d⟩
theorem Fields.txpush (d : Byte) : Fields.Statement (.txpush d) := ⟨rfl, fields_of_append _ d⟩
theorem Fields.fstep (d : Byte) : Fields.Statement (.fstep d) := ⟨rfl, fields_of_append _ d⟩
theorem Fields.ctls (d : Byte) : Fields.Statement (.ctls d) := ⟨rfl, fields_of_append _ d⟩
theorem Fields.ctlc (d : Byte) : Fields.Statement (.ctlc d) := ⟨rfl, fields_of_append _ d⟩
theorem Fields.ptrr (s : BitVec 3) : Fields.Statement (.ptrr s) := by
  revert s
  unfold Fields.Statement
  decide

end Sys2Proof.Laws
end

