-- ==== Sys2Proof/Machine/Assembler.lean ====
section
/-! DEFINITION. The assembler notation and the pseudo-instructions (30_encoding.md R101, R102): reading and writing program
lines, and names for commands; no state and no step of their own. -/

namespace Sys2Proof.Machine

/-- The bit names of CTLS and CTLC (30_encoding.md R101). -/
inductive CtrlBit where
  | rxie
  | txie
  | crlf
  | imask
deriving DecidableEq, Repr

/-- The value of a bit name (30_encoding.md R101; 10_state.md R34). -/
def CtrlBit.mask : CtrlBit → Byte
  | .rxie => 0x01
  | .txie => 0x02
  | .crlf => 0x04
  | .imask => 0x08

/-- An operand as it is written: a number, a character in quotes, one of the three escapes, or a list of bit names
(30_encoding.md R101). -/
inductive AsmOperand where
  | number (v : Byte)
  /-- A character by its ASCII code. -/
  | char (v : Byte)
  /-- The escape for a line feed. -/
  | escN
  /-- The escape for a carriage return. -/
  | escR
  /-- The escape for ESC. -/
  | escE
  | bits (l : List CtrlBit)
deriving DecidableEq, Repr

/-- The operand byte an operand stands for (30_encoding.md R101). -/
def AsmOperand.value : AsmOperand → Byte
  | .number v => v
  | .char v => v
  | .escN => 0x0A
  | .escR => 0x0D
  | .escE => 0x1B
  | .bits l => l.foldl (fun acc b => acc ||| b.mask) 0

/-- The line `mnemonic operand` of a command, the operand as a decimal number (30_encoding.md R101). -/
def asmText (i : Instr) : String :=
  match i.format with
  | .z => i.mnemonic
  | .d => i.mnemonic ++ " " ++ toString i.operand.toNat
  | .s => i.mnemonic ++ " " ++ toString i.operand.toNat

/-- The line `port: command` (30_encoding.md R101). -/
def asmLine (x : Port) (i : Instr) : String :=
  match x with
  | .f => "F: " ++ asmText i
  | .a => "A: " ++ asmText i

/-- `MASK` (30_encoding.md R102). -/
def pseudoMask : Instr := .ctls 0x08

/-- `UNMASK` (30_encoding.md R102). -/
def pseudoUnmask : Instr := .ctlc 0x08

/-- `RESTORE old`, from the response of `MASK`: `CTLC IMASK` if `old[3] = 0`, else `NOP` (30_encoding.md R102). -/
def pseudoRestore (old : Word) : Instr :=
  if old.getLsbD 3 then .nop else .ctlc 0x08

/-- `KICK` (30_encoding.md R102). -/
def pseudoKick : Instr := .ctls 0x02

/-- `RXON` (30_encoding.md R102). -/
def pseudoRxOn : Instr := .ctls 0x01

/-- `RXOFF` (30_encoding.md R102). -/
def pseudoRxOff : Instr := .ctlc 0x01

/-- `TXOFF` (30_encoding.md R102). -/
def pseudoTxOff : Instr := .ctlc 0x02

/-- `CRLFON` (30_encoding.md R102). -/
def pseudoCrlfOn : Instr := .ctls 0x04

/-- `CRLFOFF` (30_encoding.md R102). -/
def pseudoCrlfOff : Instr := .ctlc 0x04

/-- `PUTS "s"`: one WR per character (30_encoding.md R102). -/
def pseudoPuts (s : List Byte) : List Instr :=
  s.map .wr

/-- `PUSHM c`, the commands a requester issues given the response `old` of `MASK` and the response `pushed` of the push:
`MASK; TXPUSH c; RESTORE old; KICK` if the push answered V = 1 (30_encoding.md R102). -/
def pseudoPushM (c : Byte) (old pushed : Word) : List Instr :=
  [pseudoMask, .txpush c, pseudoRestore old] ++ if pushed.getLsbD 8 then [pseudoKick] else []

/-- The pseudo-instructions that are one command without an operand (30_encoding.md R102). -/
def pseudoRows : List (String × Instr) :=
  [("MASK", pseudoMask), ("UNMASK", pseudoUnmask), ("KICK", pseudoKick), ("RXON", pseudoRxOn), ("RXOFF", pseudoRxOff),
   ("TXOFF", pseudoTxOff), ("CRLFON", pseudoCrlfOn), ("CRLFOFF", pseudoCrlfOff)]

/-! ### Reading program lines (30_encoding.md R101) -/

/-- The value of a hexadecimal digit. -/
def digitValue (c : Char) : Option Nat :=
  if '0' ≤ c ∧ c ≤ '9' then some (c.toNat - 48)
  else if 'A' ≤ c ∧ c ≤ 'F' then some (c.toNat - 55)
  else if 'a' ≤ c ∧ c ≤ 'f' then some (c.toNat - 87)
  else none

/-- The digits of a number, most significant first, after the value `acc` of those before. -/
def readDigits (base : Nat) : Nat → List Char → Option Nat
  | acc, [] => some acc
  | acc, c :: r =>
    match digitValue c with
    | some k => if k < base then readDigits base (acc * base + k) r else none
    | none => none

/-- A number, hexadecimal after `0x` and else decimal. -/
def readNumber : List Char → Option Nat
  | [] => none
  | '0' :: 'x' :: c :: r => readDigits 16 0 (c :: r)
  | c :: r => readDigits 10 0 (c :: r)

/-- The parts of a text between the characters `sep`. -/
def splitAtChar (sep : Char) : List Char → List (List Char)
  | [] => [[]]
  | c :: r =>
    if c = sep then [] :: splitAtChar sep r
    else
      match splitAtChar sep r with
      | w :: ws => (c :: w) :: ws
      | [] => [[c]]

/-- A bit name. -/
def readBit (w : List Char) : Option CtrlBit :=
  if w = "RXIE".toList then some .rxie
  else if w = "TXIE".toList then some .txie
  else if w = "CRLF".toList then some .crlf
  else if w = "IMASK".toList then some .imask
  else none

/-- A byte, if the number is one. -/
def byteOf (n : Nat) : Option Byte :=
  if n < 256 then some (BitVec.ofNat 8 n) else none

/-- An operand. -/
def readOperand : List Char → Option AsmOperand
  | ['\'', '\\', 'n', '\''] => some .escN
  | ['\'', '\\', 'r', '\''] => some .escR
  | ['\'', '\\', 'e', '\''] => some .escE
  | ['\'', c, '\''] => (byteOf c.toNat).map .char
  | w =>
    match readNumber w with
    | some n => (byteOf n).map .number
    | none => ((splitAtChar '|' w).mapM readBit).map .bits

/-- One command of each row, its operand 0. -/
def rowCommands : List Instr :=
  [.nop, .rd, .wr 0, .rxpop, .txpush 0, .rxempty, .txfull, .fstep 0, .ctlr, .ctls 0, .ctlc 0, .stat, .cack, .ptrr 0]

/-- Bit names stand for the operand of CTLS and CTLC only. -/
def takesBits : Instr → AsmOperand → Bool
  | .ctls _, _ => true
  | .ctlc _, _ => true
  | _, .bits _ => false
  | _, _ => true

/-- The command of a row with an operand, if its format takes it. -/
def withOperand (i : Instr) (o : Option AsmOperand) : Option Instr :=
  match i.format, o with
  | .z, none => some i
  | .z, some _ => none
  | _, none => none
  | _, some v => if takesBits i v then (decode (encode i ||| v.value.setWidth 16)).toOption else none

/-- A command or a pseudo-instruction of one command, by its mnemonic and operand. -/
def readCommand (w : List Char) : Option Instr :=
  let m := w.takeWhile (· != ' ')
  let arg := (w.dropWhile (· != ' ')).dropWhile (· == ' ')
  match rowCommands.find? fun i => i.mnemonic.toList == m with
  | some i => if arg = [] then withOperand i none else (readOperand arg).bind fun o => withOperand i (some o)
  | none => if arg = [] then (pseudoRows.find? fun r => r.1.toList == m).map Prod.snd else none

/-- A line of a program: a command on a port, or a step of another agent in brackets. -/
inductive AsmLine where
  | command (x : Port) (i : Instr)
  | rxp (v : Byte)
  | txc
  /-- `SYN b.p -> v`, by the value the view takes. -/
  | syn (b : RingId) (p : PtrSel) (v : Nat)
  | aEnter
  | aLeave
deriving DecidableEq, Repr

/-- The ring and the pointer of a synchroniser. -/
def readCrossing (w : List Char) : Option (RingId × PtrSel) :=
  if w = "RX.head".toList then some (.rx, .head)
  else if w = "RX.tail".toList then some (.rx, .tail)
  else if w = "TX.head".toList then some (.tx, .head)
  else if w = "TX.tail".toList then some (.tx, .tail)
  else none

/-- A step of another agent, the text between the brackets split at its spaces. -/
def readAgent : List (List Char) → Option AsmLine
  | [m] =>
    if m = "TXC".toList then some .txc
    else if m = "A_ENTER".toList then some .aEnter
    else if m = "A_LEAVE".toList then some .aLeave
    else none
  | [m, v] => if m = "RXP".toList then ((readNumber v).bind byteOf).map .rxp else none
  | [m, q, arrow, v] =>
    if m = "SYN".toList ∧ arrow = "->".toList then
      (readCrossing q).bind fun r => (readNumber v).map (.syn r.1 r.2)
    else none
  | _ => none

/-- A line; one with no port is for port F. -/
def readLine : List Char → Option AsmLine
  | 'F' :: ':' :: r => (readCommand (r.dropWhile (· == ' '))).map (.command .f)
  | 'A' :: ':' :: r => (readCommand (r.dropWhile (· == ' '))).map (.command .a)
  | '[' :: r =>
    if r.dropWhile (· != ']') = [']'] then readAgent (splitAtChar ' ' (r.takeWhile (· != ']'))) else none
  | w => (readCommand w).map (.command .f)

/-- The choice of the environment that a line stands for in state `s`. -/
def AsmLine.event (s : State) : AsmLine → Event
  | .command x i => .accept x (encode i)
  | .rxp v => .rxp v
  | .txc => .txc
  | .syn b p v => .syn b p (distN (s.cap b) ((s.ring b).viewReg p) v)
  | .aEnter => .aEnter
  | .aLeave => .aLeave

end Sys2Proof.Machine
end

