-- ==== Sys2Proof/Tests/Slice0.lean ====
section
/-! SUPPORT. Tests of the model. Part 1: what the well-formedness checks refuse; part 2: words written out from the
encoding table of 30_encoding.md R92; part 3: single steps, the expected values those of 95_test_vectors.md (the vector's
name in each comment); part 4: for every statement with hypotheses a state and operands that meet them. -/

namespace Sys2Proof.Tests

open Sys2Proof Sys2Proof.Machine

/-! ### 1. Well-formedness: an ill-formed term for each check -/

theorem test_formatZ_refuses_operand : Format.z.admits 0x01 = false := by decide

theorem test_formatS_refuses_eight : Format.s.admits 0x08 = false ∧ Format.s.admits 0x07 = true := by decide

theorem test_capacity_refuses_one : capOk 1 = false ∧ capOk 2 = true := by decide

theorem test_capacity_refuses_257 : capOk 257 = false ∧ capOk 256 = true := by decide

/-- SY5. -/
theorem test_gray_refuses_six : ({ Config.reference with nTx := 6, sync := .gray, txAutostop := false }).wf = false := by
  decide

theorem test_gray_refuses_six_rx : ({ Config.reference with nRx := 6, sync := .gray, txAutostop := false }).wf = false := by
  decide

theorem test_handshake_accepts_six :
    ({ Config.reference with nTx := 6, sync := .handshake, txAutostop := false }).wf = true := by decide

theorem test_autostop_refuses_lag : ({ Config.reference with sync := .handshake }).wf = false := by decide

theorem test_config_refuses_small_rx : ({ Config.reference with nRx := 1 }).wf = false := by decide

/-! ### 2. Decoding: every constructor from its word, and illegal words (EN1 to EN26) -/

theorem test_decode_nop : decode 0b0000000000000000 = .ok .nop := by decide

theorem test_decode_rd : decode 0b0001000000000000 = .ok .rd := by decide

theorem test_decode_wr : decode 0b0010000011111111 = .ok (.wr 0xFF) := by decide

theorem test_decode_rxpop : decode 0b0011000000000000 = .ok .rxpop := by decide

theorem test_decode_txpush : decode 0b0100000001000001 = .ok (.txpush 0x41) := by decide

theorem test_decode_rxempty : decode 0b0101000000000000 = .ok .rxempty := by decide

theorem test_decode_txfull : decode 0b0110000000000000 = .ok .txfull := by decide

theorem test_decode_fstep : decode 0b0111000000011011 = .ok (.fstep 0x1B) := by decide

theorem test_decode_ctlr : decode 0b1000000000000000 = .ok .ctlr := by decide

theorem test_decode_ctls : decode 0b1001000011110000 = .ok (.ctls 0xF0) := by decide

theorem test_decode_ctlc : decode 0b1010000000001000 = .ok (.ctlc 0x08) := by decide

theorem test_decode_stat : decode 0b1011000000000000 = .ok .stat := by decide

theorem test_decode_cack : decode 0b1100000000000000 = .ok .cack := by decide

theorem test_decode_ptrr : decode 0b1101000000000101 = .ok (.ptrr 5) := by decide

theorem test_decode_illegal :
    decode 0x0001 = .error .operandNotZero ∧ decode 0x0100 = .error .zNotZero ∧ decode 0x10FF = .error .operandNotZero ∧
    decode 0x2F41 = .error .zNotZero ∧ decode 0x9F01 = .error .zNotZero ∧ decode 0xD008 = .error .selectorTooLarge ∧
    decode 0xD0F0 = .error .selectorTooLarge ∧ decode 0xE000 = .error .reservedOpcode ∧
    decode 0xFFFF = .error .reservedOpcode := by decide

theorem test_decodeTableWord :
    decodeTableWord 16 0xD007 = some (.ptrr 7) ∧ decodeTableWord 16 0xE000 = none ∧
    decodeTableWord 16 0x12000 = none := by decide

/-- 30_encoding.md R102: the words of the pseudo-instructions. -/
theorem test_pseudo_words :
    encode pseudoMask = 0x9008 ∧ encode pseudoUnmask = 0xA008 ∧ encode pseudoKick = 0x9002 ∧
    encode pseudoRxOn = 0x9001 ∧ encode pseudoRxOff = 0xA001 ∧ encode (pseudoRestore 0x0104) = 0xA008 ∧
    encode (pseudoRestore 0x010C) = 0x0000 := by decide

/-- 30_encoding.md R101: program lines. -/
theorem test_lines :
    readLine "F: WR 0x61".toList = some (.command .f (.wr 0x61)) ∧
    readLine "WR 97".toList = some (.command .f (.wr 0x61)) ∧
    readLine "A: TXPUSH 'a'".toList = some (.command .a (.txpush 0x61)) ∧
    readLine "F: WR '\\n'".toList = some (.command .f (.wr 0x0A)) ∧
    readLine "CTLS RXIE|TXIE".toList = some (.command .f (.ctls 0x03)) ∧
    readLine "F: MASK".toList = some (.command .f (.ctls 0x08)) := by decide

theorem test_lines_refused :
    readLine "F: NOP 1".toList = none ∧ readLine "PTRR 8".toList = none ∧ readLine "WR RXIE".toList = none ∧
    readLine "WR 256".toList = none ∧ readLine "WR".toList = none := by decide

/-- The bracketed lines R101 gives as examples. -/
theorem test_agent_lines :
    readLine "[RXP 0x76]".toList = some (.rxp 0x76) ∧ readLine "[TXC]".toList = some .txc ∧
    readLine "[SYN TX.tail -> 2]".toList = some (.syn .tx .tail 2) ∧ readLine "[A_ENTER]".toList = some .aEnter ∧
    readLine "[A_LEAVE]".toList = some .aLeave := by decide

/-! ### 3. Single steps -/

/-- The machine after reset with port F at micro-step `k` of `i`. -/
def atF (i : Instr) (k : BitVec 4) : State :=
  { State.reset with f := { PortState.reset with busy := true, cmd := encode i, upc := k } }

/-- The machine after reset with a session open and port A at micro-step `k` of `i`. -/
def atA (i : Instr) (k : BitVec 4) : State :=
  { State.reset with insvc := .a, a := { PortState.reset with busy := true, cmd := encode i, upc := k } }

/-- A `TX` ring with these pointers, views equal to them. -/
def txAt (s : State) (m : Memory) (head tail : Nat) : State :=
  { s with tx := { storage := m, head := head, tail := tail, headC := head, tailP := tail } }

/-- An `RX` ring with these pointers, views equal to them. -/
def rxAt (s : State) (m : Memory) (head tail : Nat) : State :=
  { s with rx := { storage := m, head := head, tail := tail, headC := head, tailP := tail } }

/-- The outcome is a next state of which `p` holds. -/
def nextWith (r : Result) (p : State → Bool) : Bool :=
  match r with
  | .next t => p t
  | .fault _ => false
  | .refused _ => false

/-- The state after a step, the state itself where the step stops. -/
def nextOf (s : State) : State :=
  match step s with
  | .next t => t
  | .fault _ => s
  | .refused _ => s

/-- The outcome is this fault. -/
def faultIs (r : Result) (e : Fault) : Bool :=
  match r with
  | .next _ => false
  | .fault f => f == e
  | .refused _ => false

/-- EN1. -/
theorem test_nop : nextWith (exec .nop (atF .nop 0)) (fun t => t.f.rsp == 0x0000 && !t.f.busy) = true := by decide

/-- RV1, u0: `CTRL` is 0x0D inside the bracket. -/
theorem test_rd_enter : nextWith (exec .rd { atF .rd 0 with ctrl := ⟨true, false, true, false⟩ })
    (fun t => t.ctrl.toByte == 0x0D && !t.sm && t.f.upc == 1) = true := by decide

/-- RV2, u5: no data, the mask restored. -/
theorem test_rd_none : nextWith (exec .rd { atF .rd 5 with ctrl := ⟨false, false, true, true⟩ })
    (fun t => t.f.rsp == 0x0000 && t.ctrl.toByte == 0x04) = true := by decide

/-- W7, u0: a line feed becomes a carriage return with a line feed to follow. -/
theorem test_wr_lf : nextWith (exec (.wr 0x0A) (atF (.wr 0x0A) 0)) (fun t => t.f.c == 0x0D && t.f.lf && t.f.upc == 1)
    = true := by decide

/-- W2, u3: full, so u7 next. -/
theorem test_wr_full : nextWith (exec (.wr 0x61) (txAt (atF (.wr 0x61) 3) [] 3 0)) (fun t => t.f.upc == 7)
    = true := by decide

/-- RG8, u2: `RX.tail` wraps, and a zero byte is V = 1. -/
theorem test_rxpop_wrap : nextWith (exec .rxpop (rxAt (atF .rxpop 2) [(3, 0x00)] 0 3))
    (fun t => t.f.rsp == 0x0100 && t.rx.tail == 0 && t.rx.head == 0) = true := by decide

/-- RG9, u0: empty. -/
theorem test_rxpop_empty : nextWith (exec .rxpop (rxAt (atF .rxpop 0) [] 1 1))
    (fun t => t.f.rsp == 0x0000 && !t.f.busy && t.rx.tail == 1) = true := by decide

/-- RG2, u1: the store is at `TX.head`. -/
theorem test_txpush_store : nextWith (exec (.txpush 0x41) (txAt (atF (.txpush 0x41) 1) [] 3 1))
    (fun t => t.tx.storage == [(3, 0x41)] && t.tx.head == 3) = true := by decide

/-- RG4, u0: full across the wrap. -/
theorem test_txpush_full : nextWith (exec (.txpush 0x41) (txAt (atF (.txpush 0x41) 0) [] 0 1))
    (fun t => t.f.rsp == 0x0000 && !t.f.busy && t.tx.head == 0) = true := by decide

/-- RG11. -/
theorem test_rxempty : nextWith (exec .rxempty (rxAt (atF .rxempty 0) [(0, 0x41)] 1 0)) (fun t => t.f.rsp == 0x0000)
    = true := by decide

/-- RG12. -/
theorem test_txfull : nextWith (exec .txfull (txAt (atF .txfull 0) [] 0 1)) (fun t => t.f.rsp == 0x0100)
    = true := by decide

/-- FS5. -/
theorem test_fstep_cancel : nextWith (exec (.fstep 0x18) { atF (.fstep 0x18) 0 with escf := true })
    (fun t => t.f.rsp == 0x0400 && !t.escf && t.cancelPend && t.cancelCount == 1) = true := by decide

/-- FS6. -/
theorem test_fstep_marker_twice : nextWith (exec (.fstep 0x1B) { atF (.fstep 0x1B) 0 with escf := true })
    (fun t => t.f.rsp == 0x011B && !t.escf && t.cancelCount == 0) = true := by decide

/-- KC1. -/
theorem test_ctlr : nextWith (exec .ctlr (atF .ctlr 0)) (fun t => t.f.rsp == 0x0104 && t.ctrl.toByte == 0x04)
    = true := by decide

/-- KC4. -/
theorem test_ctls : nextWith (exec (.ctls 0xFF) { atF (.ctls 0xFF) 0 with ctrl := ⟨false, false, false, false⟩ })
    (fun t => t.f.rsp == 0x0100 && t.ctrl.toByte == 0x0F) = true := by decide

/-- KC3. -/
theorem test_ctlc : nextWith (exec (.ctlc 0x08) { atF (.ctlc 0x08) 0 with ctrl := ⟨true, true, true, true⟩ })
    (fun t => t.f.rsp == 0x010F && t.ctrl.toByte == 0x07) = true := by decide

/-- ST2. -/
theorem test_stat_all : nextWith (exec .stat
      { txAt (rxAt (atF .stat 0) [(0, 0x41)] 1 0) [] 3 0 with escf := true, cancelPend := true })
    (fun t => t.f.rsp == 0x010D) = true := by decide

/-- ST3. -/
theorem test_stat_escf : nextWith (exec .stat { txAt (atF .stat 0) [] 2 0 with escf := true })
    (fun t => t.f.rsp == 0x0106) = true := by decide

/-- FS10: the acknowledge clears the flag and keeps the cancel trace. -/
theorem test_cack : nextWith (exec .cack { atF .cack 0 with cancelPend := true, cancelCount := 2 })
    (fun t => t.f.rsp == 0x0100 && !t.cancelPend && t.cancelCount == 2) = true := by decide

/-- SY9. -/
theorem test_ptrr_gray : nextWith (exec (.ptrr 4)
      { txAt (atF (.ptrr 4) 0) [] 6 0 with cfg := { Config.reference with nTx := 8 } })
    (fun t => t.f.rsp == 0x0105) = true := by decide

/-- SY10: selector 7 with the view `RX.head_c = 2`. -/
theorem test_ptrr_view : nextWith (exec (.ptrr 7) { atF (.ptrr 7) 0 with
      cfg := { Config.reference with sync := .gray, txAutostop := false }
      rx := { storage := [], head := 3, tail := 3, headC := 2, tailP := 3 } })
    (fun t => t.f.rsp == 0x0103) = true := by decide

/-- EN3: an illegal word is executed and answers. -/
theorem test_illegal : nextWith (step (State.reset.withFetchWord 16 0x0100))
    (fun t => t.f.rsp == 0x0200 && !t.f.busy && t.ctrl.toByte == 0x04) = true := by decide

/-- EN19, as the first command after reset. -/
theorem test_first_step : nextWith (step (State.reset.withFetchWord 16 0xA0FF))
    (fun t => t.f.rsp == 0x0104 && t.ctrl.toByte == 0x00 && t.rspTrace == [(.f, 0x0104)]) = true := by decide

/-- AG3. -/
theorem test_rxp_wrap : nextWith (step { rxAt State.reset [(1, 0x01), (2, 0x02)] 3 1 with
      script := [.rxp 0x76], ctrl := ⟨true, false, true, false⟩ })
    (fun t => t.rx.storage == [(1, 0x01), (2, 0x02), (3, 0x76)] && t.rx.head == 0) = true := by decide

/-- AG2: the byte is dropped. -/
theorem test_rxp_drop : nextWith (step { rxAt State.reset [(0, 0x00), (1, 0x01), (2, 0x02)] 3 0 with
      script := [.rxp 0x76], ctrl := ⟨true, false, true, false⟩ })
    (fun t => t.rx.storage == [(0, 0x00), (1, 0x01), (2, 0x02)] && t.rx.head == 3 && t.rxTrace == [0x76])
    = true := by decide

/-- AG7. -/
theorem test_txc_send : nextWith (step { txAt State.reset [(0, 0x61)] 1 0 with
      script := [.txc], ctrl := ⟨false, true, true, false⟩ })
    (fun t => t.txTrace == [0x61] && t.tx.tail == 1 && t.ctrl.toByte == 0x06) = true := by decide

/-- AG8. -/
theorem test_txc_stop : nextWith (step { txAt State.reset [(0, 0x61)] 1 1 with
      script := [.txc], ctrl := ⟨false, true, true, false⟩ })
    (fun t => t.txTrace == [] && t.ctrl.toByte == 0x04) = true := by decide

/-- AG11 and AG12: a session opens at u8 of a WR, not at u5. -/
theorem test_session_in_wr :
    ({ atF (.wr 0x61) 8 with script := [] }).enabled .aEnter = true ∧
    ({ atF (.wr 0x61) 5 with ctrl := ⟨false, false, true, true⟩ }).enabled .aEnter = false := by decide

/-- SY7: from view 6 toward pointer 2 with `N = 8`, `k = 4` reaches it and `k = 5` is no step. -/
theorem test_syn :
    let s : State := { State.reset with
      cfg := { Config.reference with nTx := 8, sync := .gray, txAutostop := false }
      tx := { storage := [], head := 2, tail := 6, headC := 6, tailP := 6 } }
    nextWith (step { s with script := [.syn .tx .head 4] }) (fun t => t.tx.headC == 2 && t.tx.head == 2) = true ∧
    s.enabled (.syn .tx .head 5) = false ∧ s.enabled (.syn .tx .tail 1) = false := by decide

/-- P6a. -/
theorem test_spsc : faultIs (step { atA (.txpush 0x7A) 0 with
      f := { PortState.reset with busy := true, cmd := 0x4041, upc := 1 } }) .spscViolation = true := by decide

/-- AR1, AR2, AR3. -/
theorem test_pointers :
    incN 4 3 = 0 ∧ incN 3 2 = 0 ∧ incN 256 255 = 0 ∧ distN 4 3 1 = 2 ∧ distN 4 1 0 = 3 ∧ distN 3 2 1 = 2 ∧
    [2, 3, 4, 5, 8, 9, 129, 256].map ptrWidth = [1, 2, 2, 3, 3, 4, 8, 8] := by decide

/-- SY3, SY4. -/
theorem test_gray :
    bin2gray (9 : BitVec 4) = 0b1101 ∧ gray2bin (0b1101 : BitVec 4) = 9 ∧ bin2gray (0x7F : BitVec 8) = 0x40 ∧
    bin2gray (0x80 : BitVec 8) = 0xC0 ∧ bin2gray (0xFF : BitVec 8) = 0x80 := by decide

/-- AR7. -/
theorem test_contents : (txAt State.reset [(0, 0x63), (3, 0x62)] 1 3).contents .tx = [0x62, 0x63] := by decide

/-! ### 4. Hypotheses that are met -/

/-- `TX` holds 0x61 and port F is about to publish 0x62 (TXPUSH u2); the transmit source is enabled. -/
def sPublish : State :=
  { txAt (atF (.txpush 0x62) 2) [(0, 0x61), (1, 0x62)] 1 0 with
    ctrl := ⟨false, true, true, false⟩, script := [.micro .f] }

/-- `RX` holds 0x76, 0x77 across the wrap and port F is about to release the first (RD u3). -/
def sRelease : State :=
  { rxAt State.reset [(0, 0x77), (3, 0x76)] 1 3 with
    f := { PortState.reset with busy := true, cmd := 0x1000, upc := 3, t := 0x76 }
    ctrl := ⟨true, false, true, true⟩
    script := [.micro .f] }

/-- SY8, mode `GRAY`: both views of `TX` behind their pointers. -/
def sLag : State :=
  { State.reset with
    cfg := { Config.reference with sync := .gray, txAutostop := false }
    tx := { storage := [(0, 0x61), (1, 0x62), (2, 0x63)], head := 3, tail := 2, headC := 2, tailP := 0 }
    ctrl := ⟨true, true, true, false⟩
    script := [.syn .tx .head 1] }

/-- Port A about to publish 0x23 (WR u5) in a session, port F stopped at u8 of its own WR. -/
def sSession : State :=
  { txAt State.reset [(0, 0x0D), (1, 0x23)] 1 0 with
    insvc := .a
    f := { PortState.reset with busy := true, cmd := 0x200A, upc := 8, c := 0x0D, lf := true }
    a := { PortState.reset with busy := true, cmd := 0x2023, upc := 5, c := 0x23 }
    script := [.micro .a] }

/-- Port F at u0 of a command, `RX` holding a byte, `TX` one byte short of full; the transmit source enabled. -/
def sStart (i : Instr) : State :=
  { txAt (rxAt (atF i 0) [(3, 0x76)] 0 3) [(0, 0x31), (1, 0x32)] 2 0 with ctrl := ⟨true, true, true, false⟩ }

/-- A received byte is about to join an empty `RX`. -/
def sReceive : State :=
  { State.reset with ctrl := ⟨true, false, true, false⟩, script := [.rxp 0x76] }

/-- `RingInv` and `PortInv` of a concrete state, clause by clause. -/
theorem inv_of (s : State) (hc : s.cfg.wf = true)
    (hr : ∀ b ∈ [RingId.rx, RingId.tx], ((s.ring b).head < s.cap b ∧ (s.ring b).tail < s.cap b ∧
      (s.ring b).headC < s.cap b ∧ (s.ring b).tailP < s.cap b) ∧ Memory.wf (s.ring b).storage ∧
      (∀ c ∈ (s.ring b).storage, c.1 < s.cap b) ∧
      distN (s.cap b) (s.tailView b) (s.ring b).tail + distN (s.cap b) (s.ring b).tail (s.headView b)
        + distN (s.cap b) (s.headView b) (s.ring b).head = distN (s.cap b) (s.tailView b) (s.ring b).head ∧
      ∀ k < s.occ b, (Memory.read (s.ring b).storage (((s.ring b).tail + k) % s.cap b)).isSome = true)
    (hp : ∀ x ∈ [Port.f, Port.a], (s.port x).upc.toNat ≤ 9 ∧ (s.port x).upc.toNat ≤ s.lastStep x ∧
      (s.stands x pushing = true → s.fullP .tx = false) ∧ (s.stands x popping = true → s.emptyC .rx = false) ∧
      (s.publishByte x = none ∨ s.publishByte x = Memory.read s.tx.storage s.tx.head) ∧
      (s.stands x releasing = true → Memory.read s.rx.storage s.rx.tail = some (s.port x).t))
    (hs : s.a.busy = true → s.insvc = .a)
    (hb : s.stands .f bracketed = true → s.ctrl.imask = true ∧ s.insvc = .none)
    (h1 : ¬(s.stands .f pushing = true ∧ s.stands .a pushing = true))
    (h2 : ¬(s.stands .f popping = true ∧ s.stands .a popping = true)) : Inv s := by
  have ring : ∀ b, RingInv s b := fun b => by
    obtain ⟨⟨a1, a2, a3, a4⟩, a5, a6, a7, a8⟩ := hr b (by cases b <;> decide)
    exact ⟨a1, a2, a3, a4, a5, a6, a7, a8⟩
  have port : ∀ x, PortInv s x := fun x => by
    obtain ⟨a1, a2, a3, a4, a5, a6⟩ := hp x (by cases x <;> decide)
    refine ⟨a1, fun _ => a2, a3, a4, fun v hv => ?_, a6⟩
    rcases a5 with h | h
    · rw [h] at hv; cases hv
    · rw [← h, hv]
  exact ⟨hc, ring .rx, ring .tx, port .f, port .a, hs, hb, h1, h2⟩

theorem inv_sPublish : Inv sPublish := by apply inv_of <;> decide

theorem inv_sRelease : Inv sRelease := by apply inv_of <;> decide

theorem inv_sLag : Inv sLag := by apply inv_of <;> decide

theorem inv_sSession : Inv sSession := by apply inv_of <;> decide

theorem inv_sReceive : Inv sReceive := by apply inv_of <;> decide

theorem inv_sStart_txpush : Inv (sStart (.txpush 0x33)) := by apply inv_of <;> decide

theorem inv_sStart_wr : Inv (sStart (.wr 0x0A)) := by apply inv_of <;> decide

theorem witness_EncodeThenDecode : (Instr.ptrr 7).wf = true ∧ (Instr.wr 0xFF).wf = true := by decide

theorem witness_DecodeThenEncode : decode 0xD007 = .ok (.ptrr 7) := by decide

theorem witness_IllegalWords_accept :
    let s := { State.reset with script := [.accept .f 0xFFFF] }
    s.cfg.wf = true ∧ s.script = .accept .f 0xFFFF :: [] ∧ s.stepping = .f ∧ (s.port .f).busy = false := by decide

theorem witness_IllegalWords_answer :
    let s := { State.reset with
      insvc := .a, a := { PortState.reset with busy := true, cmd := 0xD008 }, script := [.micro .a] }
    s.cfg.wf = true ∧ s.script = .micro s.stepping :: [] ∧ s.cur.busy = true ∧ s.cur.upc = 0 ∧
    decode s.cur.cmd = .error .selectorTooLarge := by decide

theorem witness_StepRuns :
    sRelease.cfg.wf = true ∧ sRelease.script = .micro sRelease.stepping :: [] ∧ sRelease.cur.busy = true ∧
    decode sRelease.cur.cmd = .ok .rd := by decide

theorem witness_StepWithout_notEnabled :
    let s := { State.reset with script := [.txc] }
    s.cfg.wf = true ∧ s.script = .txc :: [] ∧ ({ s with script := [] }).enabled .txc = false := by decide

theorem witness_StepWithout_idle :
    State.reset.cfg.wf = true ∧ State.reset.script = [] ∧ State.reset.cur.busy = false := by decide

theorem witness_StepWithout_busy :
    (atF .rd 3).cfg.wf = true ∧ (atF .rd 3).script = [] ∧ (atF .rd 3).cur.busy = true ∧
    decode (atF .rd 3).cur.cmd = .ok .rd := by decide

theorem witness_StepWithout_illFormed : (State.resetWith { Config.reference with nTx := 257 }).cfg.wf = false := by decide

theorem witness_Acceptance_taken :
    let s := { State.reset with script := [.accept .f 0x2061] }
    s.cfg.wf = true ∧ s.script = .accept .f 0x2061 :: [] ∧ s.stepping = .f ∧ (s.port .f).busy = false := by decide

theorem witness_Acceptance_busy :
    let s := { atA (.wr 0x61) 3 with script := [.accept .a 0x2061] }
    s.cfg.wf = true ∧ s.script = .accept .a 0x2061 :: [] ∧ (s.port .a).busy = true := by decide

theorem witness_ResetValues : (State.resetWith { Config.reference with nRx := 2, nTx := 256 }).cfg.wf = true := by decide

theorem witness_ResetMeetsTheInvariant :
    ({ Config.reference with nRx := 2, nTx := 256, sync := .gray, txAutostop := false }).wf = true := by decide

theorem witness_EveryStepKeepsTheInvariant_publish : Inv sPublish ∧ ∃ t, step sPublish = .next t :=
  ⟨inv_sPublish, _, rfl⟩

theorem witness_EveryStepKeepsTheInvariant_lag : Inv sLag ∧ ∃ t, step sLag = .next t := ⟨inv_sLag, _, rfl⟩

theorem witness_EveryStepKeepsTheInvariant_session : Inv sSession ∧ ∃ t, step sSession = .next t :=
  ⟨inv_sSession, _, rfl⟩

theorem witness_OnlyTheSpscFault_next : Inv sRelease ∧ ∃ t, step sRelease = .next t := ⟨inv_sRelease, _, rfl⟩

/-- Port A checks a ring end port F has open, in a state that meets the invariant. -/
def sViolation : State :=
  { atA .rd 1 with f := { PortState.reset with busy := true, cmd := 0x3000, upc := 1 }, rx := sRelease.rx }

theorem witness_OnlyTheSpscFault_fault : Inv sViolation ∧ step sViolation = .fault .spscViolation :=
  ⟨by apply inv_of <;> decide, rfl⟩

theorem witness_SpscFaultExactly :
    sViolation.cfg.wf = true ∧ sViolation.nextEvent = some (.micro .a) ∧ sViolation.insvc = .a ∧
    sViolation.running .f = some .rxpop ∧ sViolation.running .a = some .rd ∧ sViolation.a.upc = 1 := by decide

theorem witness_TheMask : sRelease.ctrl.imask = true ∧ sRelease.insvc = .none ∧ ∃ t, step sRelease = .next t :=
  ⟨rfl, rfl, _, rfl⟩

theorem witness_TransmitRing_publish :
    Inv sPublish ∧ (∃ t, step sPublish = .next t) ∧ sPublish.publishByte .f = some 0x62 :=
  ⟨inv_sPublish, ⟨_, rfl⟩, by decide⟩

theorem witness_TransmitRing_send :
    Inv { sPublish with script := [.txc] } ∧ nextWith (step { sPublish with script := [.txc] })
      (fun t => t.txTrace == [0x61] && t.contents .tx == []) = true :=
  ⟨by apply inv_of <;> decide, by decide⟩

theorem witness_ReceiveRing_release :
    Inv sRelease ∧ (∃ t, step sRelease = .next t) ∧ sRelease.stands .f releasing = true :=
  ⟨inv_sRelease, ⟨_, rfl⟩, by decide⟩

theorem witness_ReceiveRing_join :
    Inv sReceive ∧ nextWith (step sReceive) (fun t => t.contents .rx == [0x76]) = true :=
  ⟨inv_sReceive, by decide⟩

theorem witness_StaleViews : Inv sLag ∧ sLag.fullP .tx = true ∧ sLag.emptyC .tx = true ∧ sLag.occ .tx = 1 ∧
    sLag.caughtUp .tx = false := ⟨inv_sLag, by decide⟩

theorem witness_StaleViews_caughtUp : Inv sRelease ∧ sRelease.fullP .rx = false ∧ sRelease.emptyC .rx = false ∧
    sRelease.caughtUp .rx = true := ⟨inv_sRelease, by decide⟩

theorem witness_OccupancyBounds : Inv sPublish ∧ sPublish.occ .tx = 1 := ⟨inv_sPublish, by decide⟩

theorem witness_DrainSendsTheContents :
    let s := { sPublish with script := [.txc, .aEnter] }
    Inv s ∧ s.insvc = .none ∧ s.ctrl.imask = false ∧ s.ctrl.txie = true ∧ s.headView .tx = s.tx.head ∧
    s.script = List.replicate (s.occ .tx) .txc ++ [.aEnter] :=
  ⟨by apply inv_of <;> decide, by decide⟩

/-- The state after the event `e` from `s`. -/
def after (s : State) (e : Event) : State :=
  nextOf { s with script := [e] }

/-- Every event of the list is enabled in its turn and answers a next state. -/
def goodRun (s : State) : List Event → Bool
  | [] => true
  | e :: es => s.enabled e && nextWith (step { s with script := [e] }) (fun _ => true) && goodRun (after s e) es

/-- State `n` of the execution that takes the events of the list and then rests. -/
def runOf (s : State) : List Event → Nat → State
  | [], _ => s
  | _ :: _, 0 => s
  | e :: es, n + 1 => runOf (after s e) es n

theorem execution_of (s : State) (es : List Event) (h : goodRun s es = true) : Execution (runOf s es) (es[·]?) := by
  induction es generalizing s with
  | nil => intro n; simp [runOf]
  | cons e es ih =>
    simp only [goodRun, Bool.and_eq_true] at h
    intro n
    cases n with
    | zero =>
      refine ⟨by simpa [runOf] using h.1.1, ?_⟩
      have hs : step { s with script := [e] } = .next (after s e) := by
        have h2 := h.1.2
        unfold after nextOf
        cases hq : step { s with script := [e] } with
        | next t => rfl
        | fault f => simp [hq, nextWith] at h2
        | refused r => simp [hq, nextWith] at h2
      cases es <;> simpa [runOf] using hs
    | succ n => simpa [runOf] using ih (after s e) h.2 n

theorem runOf_end (s : State) (es : List Event) (k : Nat) : runOf s es (es.length + k) = runOf s es es.length := by
  induction es generalizing s with
  | nil => simp [runOf]
  | cons e es ih =>
    show runOf s (e :: es) (es.length + 1 + k) = runOf s (e :: es) (es.length + 1)
    rw [show es.length + 1 + k = es.length + k + 1 by omega]
    exact ih (after s e)

/-- An execution that comes to rest with nothing left to do is fair. -/
theorem fair_of (s : State) (es : List Event)
    (hs : ∀ b ∈ [RingId.rx, RingId.tx], ∀ p ∈ [PtrSel.head, PtrSel.tail],
      (runOf s es es.length).enabled (.syn b p 1) = false)
    (hp : ∀ x n, n < es.length → (runOf s es n).enabled (.micro x) = false)
    (hx : ∀ x ∈ [Port.f, Port.a], (runOf s es es.length).enabled (.micro x) = false)
    (hi : ∀ n < es.length, (runOf s es n).insvc = .a → es[n]? = some .aLeave)
    (hn : (runOf s es es.length).insvc = .none)
    (ht : (runOf s es es.length).enabled .txc = false) : Fair (runOf s es) (es[·]?) := by
  have rest : ∀ n, es.length ≤ n → runOf s es n = runOf s es es.length := fun n h => by
    rw [← runOf_end s es (n - es.length)]; congr 1; omega
  have never : ∀ (P : State → Prop) n, ¬P (runOf s es es.length) → ¬∀ m ≥ n, P (runOf s es m) := fun P n h hm =>
    h (rest (max n es.length) (le_max_right _ _) ▸ hm (max n es.length) (le_max_left _ _))
  refine ⟨fun b p n h => (never (fun u => u.enabled (.syn b p 1) = true) n ?_ h).elim, fun x n h => ?_,
    fun n h => ?_, fun n h => (never (fun u => u.enabled .txc = true) n (by simp [ht]) h).elim⟩
  · simp [hs b (by cases b <;> decide) p (by cases p <;> decide)]
  · rcases Nat.lt_or_ge n es.length with hl | hl
    · simp [hp x n hl] at h
    · rw [rest n hl, hx x (by cases x <;> decide)] at h; cases h
  · rcases Nat.lt_or_ge n es.length with hl | hl
    · exact ⟨n, le_refl n, hi n hl h⟩
    · rw [rest n hl, hn] at h; cases h

/-- `TX` of `sLag`: one byte, its publish not yet carried over, and no port busy. -/
def lagEvents : List Event := [.syn .tx .head 1, .txc, .syn .tx .tail 3]

theorem fair_lag : Fair (runOf sLag lagEvents) (lagEvents[·]?) := by
  apply fair_of
  · decide
  · intro x n h; cases x <;> (change n < 3 at h; interval_cases n <;> decide)
  all_goals decide

theorem always_lag (n : Nat) : (runOf sLag lagEvents n).ctrl.txie = true ∧ (runOf sLag lagEvents n).ctrl.imask = false ∧
    (runOf sLag lagEvents n).insvc = .none := by
  rcases n with _ | _ | _ | n
  · decide
  · decide
  · decide
  · show (runOf sLag lagEvents 3).ctrl.txie = true ∧ (runOf sLag lagEvents 3).ctrl.imask = false ∧
      (runOf sLag lagEvents 3).insvc = .none
    decide

theorem witness_EveryByteInTx_noSession :
    Inv (runOf sLag lagEvents 0) ∧ Execution (runOf sLag lagEvents) (lagEvents[·]?) ∧
    Fair (runOf sLag lagEvents) (lagEvents[·]?) ∧
    (∀ m ≥ 0, ¬sentBy (runOf sLag lagEvents) 0 m → (runOf sLag lagEvents m).ctrl.txie = true ∧
      (runOf sLag lagEvents m).ctrl.imask = false) ∧
    (∀ m ≥ 0, ¬sentBy (runOf sLag lagEvents) 0 m → (runOf sLag lagEvents m).insvc = .none) ∧
    (runOf sLag lagEvents 0).contents .tx = [0x63] ∧ (runOf sLag lagEvents 3).txTrace = [0x63] :=
  ⟨inv_sLag, execution_of _ _ (by decide), fair_lag, fun m _ _ => ⟨(always_lag m).1, (always_lag m).2.1⟩,
    fun m _ _ => (always_lag m).2.2, by decide, by decide⟩

theorem witness_EveryByteInTx_publish :
    Inv (runOf sPublish [.micro .f] 0) ∧ Execution (runOf sPublish [.micro .f]) ([Event.micro .f][·]?) ∧
    (runOf sPublish [.micro .f] 0).publishByte .f = some 0x62 :=
  ⟨inv_sPublish, execution_of _ _ (by decide), by decide⟩

/-- One byte in `TX`, the transmit source on, no command in flight, mode `DIRECT`. -/
def sHeld : State :=
  { txAt State.reset [(0, 0x61)] 1 0 with ctrl := ⟨false, true, true, false⟩ }

/-- A session, and then the byte is sent and the drained transmitter stops. -/
def sessionEvents : List Event := [.aEnter, .aLeave, .txc, .txc]

theorem witness_EveryByteInTx_session :
    Inv (runOf sHeld sessionEvents 0) ∧ Execution (runOf sHeld sessionEvents) (sessionEvents[·]?) ∧
    Fair (runOf sHeld sessionEvents) (sessionEvents[·]?) ∧ TxcAcrossSessions (runOf sHeld sessionEvents) (sessionEvents[·]?) ∧
    (∀ m ≥ 0, ¬sentBy (runOf sHeld sessionEvents) 0 m → (runOf sHeld sessionEvents m).ctrl.txie = true ∧
      (runOf sHeld sessionEvents m).ctrl.imask = false) ∧
    (runOf sHeld sessionEvents 1).insvc = .a := by
  refine ⟨by apply inv_of <;> decide, execution_of _ _ (by decide), ?_, fun n h => ?_, fun m _ h => ?_, by decide⟩
  · apply fair_of
    · decide
    · intro x n h; cases x <;> (change n < 4 at h; interval_cases n <;> decide)
    all_goals decide
  · obtain ⟨j, hj, he⟩ := h (max n 4) (le_max_left _ _)
    obtain ⟨k, rfl⟩ : ∃ k, j = sessionEvents.length + k := ⟨j - 4, by
      have : max n 4 ≤ j := hj
      show j = 4 + (j - 4)
      omega⟩
    rw [runOf_end] at he
    exact absurd he (by decide)
  · rcases m with _ | _ | _ | _ | m
    · decide
    · decide
    · decide
    · decide
    · exact absurd (show sentBy (runOf sHeld sessionEvents) 0 4 by unfold sentBy; decide) h

/-- With sessions that open again and again the four clauses word for word do not make `TXC` step (log 23). -/
theorem test_sessions_starve_txc :
    let run : Nat → State := fun n => if n % 2 = 0 then sHeld else { sHeld with insvc := .a }
    let ev : Nat → Option Event := fun n => if n % 2 = 0 then some .aEnter else some .aLeave
    Execution run ev ∧ Fair run ev ∧
    ∀ n, (run n).ctrl.txie = true ∧ (run n).ctrl.imask = false ∧ (run n).txTrace = [] := by
  have step0 : step { sHeld with script := [.aEnter] } = .next { sHeld with insvc := .a } := rfl
  have step1 : step { sHeld with insvc := .a, script := [.aLeave] } = .next sHeld := rfl
  intro run ev
  have even : ∀ n, n % 2 = 0 → run n = sHeld ∧ ev n = some .aEnter := fun n h => by simp [run, ev, h]
  have odd : ∀ n, ¬n % 2 = 0 → run n = { sHeld with insvc := .a } ∧ ev n = some .aLeave := fun n h => by
    simp [run, ev, h]
  refine ⟨fun n => ?_, ⟨fun b p n h => ?_, fun x n h => ?_, fun n h => ?_, fun n h => ?_⟩, fun n => ?_⟩
  · by_cases hn : n % 2 = 0
    · rw [(even n hn).1, (even n hn).2, (odd (n + 1) (by omega)).1]; exact ⟨by decide, step0⟩
    · rw [(odd n hn).1, (odd n hn).2, (even (n + 1) (by omega)).1]; exact ⟨by decide, step1⟩
  · have := h n (le_refl n)
    by_cases hn : n % 2 = 0
    · rw [(even n hn).1] at this; cases b <;> cases p <;> cases this
    · rw [(odd n hn).1] at this; cases b <;> cases p <;> cases this
  · by_cases hn : n % 2 = 0
    · rw [(even n hn).1] at h; cases x <;> cases h
    · rw [(odd n hn).1] at h; cases x <;> cases h
  · by_cases hn : n % 2 = 0
    · exact ⟨n + 1, by omega, (odd (n + 1) (by omega)).2⟩
    · exact ⟨n, le_refl n, (odd n hn).2⟩
  · have := h (2 * n + 1) (by omega)
    rw [(odd (2 * n + 1) (by omega)).1] at this
    cases this
  · by_cases hn : n % 2 = 0
    · rw [(even n hn).1]; exact ⟨rfl, rfl, rfl⟩
    · rw [(odd n hn).1]; exact ⟨rfl, rfl, rfl⟩

/-- A received byte, carried over to the consumer's side by a synchroniser. -/
def receiveEvents : List Event := [.rxp 0x76, .syn .rx .head 1]

/-- `RX` empty, the receive source on, mode `GRAY`. -/
def sLagRx : State :=
  { State.resetWith { Config.reference with sync := .gray, txAutostop := false } with ctrl := ⟨true, false, true, false⟩ }

theorem witness_EveryReceivedByte :
    Inv (runOf sLagRx receiveEvents 0) ∧ Execution (runOf sLagRx receiveEvents) (receiveEvents[·]?) ∧
    Fair (runOf sLagRx receiveEvents) (receiveEvents[·]?) ∧ receiveEvents[0]? = some (.rxp 0x76) ∧
    (runOf sLagRx receiveEvents 0).fullP .rx = false ∧
    (runOf sLagRx receiveEvents 1).contents .rx = [0x76] ∧ (runOf sLagRx receiveEvents 1).visible .rx = [] ∧
    (runOf sLagRx receiveEvents 2).visible .rx = [0x76] := by
  refine ⟨by apply inv_of <;> decide, execution_of _ _ (by decide), ?_, by decide⟩
  apply fair_of
  · decide
  · intro x n h; cases x <;> (change n < 2 at h; interval_cases n <;> decide)
  all_goals decide

theorem witness_EveryReceivedByte_visible :
    Inv sRelease ∧ sRelease.visible .rx = 0x76 :: [0x77] := ⟨inv_sRelease, by decide⟩

theorem witness_SynMoves_step :
    sLag.cfg.wf = true ∧ sLag.cfg.sync.lagged = true ∧ sLag.script = .syn .tx .head 1 :: [] ∧
    (sLag.ring .tx).viewReg .head < sLag.cap .tx ∧ (sLag.ring .tx).pointer .head < sLag.cap .tx ∧
    (sLag.ring .tx).viewReg .head ≠ (sLag.ring .tx).pointer .head ∧ 1 = sLag.lag .tx .head := by decide

theorem witness_SynMoves_none :
    let s := { sLag with script := [.syn .tx .tail 3] }
    s.cfg.wf = true ∧ s.cfg.sync.lagged = true ∧ s.script = .syn .tx .tail 3 :: [] ∧
    (s.ring .tx).viewReg .tail < s.cap .tx ∧ (s.ring .tx).pointer .tail < s.cap .tx ∧ ¬3 ≤ s.lag .tx .tail := by decide

theorem witness_DirectViews : State.reset.cfg.sync = .direct := by decide

theorem witness_GrayNeighbours : 0 < 1 ∧ 0 < 8 := by decide

theorem witness_GrayCodeIsUndone : 7 < 8 ∧ 0 < 1 := by decide

theorem witness_PointerWidth : (2 ≤ 2 ∧ 2 ≤ 256 ∧ 1 < 2) ∧ (2 ≤ 256 ∧ 256 ≤ 256 ∧ 255 < 256 ∧ 256 = 2 ^ 8) := by decide

theorem witness_oneStep_commands :
    (atF .nop 0).cur.upc = 0 ∧ (atA .ctlr 0).cur.upc = 0 ∧ (atF .stat 0).cur.upc = 0 ∧ (atF (.ctls 0xFF) 0).cur.upc = 0 ∧
    (atA (.ctlc 0x00) 0).cur.upc = 0 ∧ (atA .cack 0).cur.upc = 0 ∧ (atF (.ptrr 7) 0).cur.upc = 0 ∧
    (atF .rxempty 0).cur.upc = 0 ∧ (atA .txfull 0).cur.upc = 0 := by decide

theorem witness_Fstep_marked :
    let s := { atF (.fstep 0x18) 0 with escf := true }
    s.cur.upc = 0 ∧ s.escf = true ∧ (0x18 : Byte) = s.cfg.cancelChar ∧ (0x1B : Byte) ≠ s.cfg.cancelChar := by decide

theorem witness_Fstep_unmarked :
    let s := atF (.fstep 0x1B) 0
    s.cur.upc = 0 ∧ s.escf = false ∧ (0x1B : Byte) = s.cfg.escChar ∧ (0x18 : Byte) ≠ s.cfg.escChar := by decide

theorem witness_Txpush_check :
    (atF (.txpush 0x41) 0).cur.upc = 0 ∧ (atF (.txpush 0x41) 0).stepping = .f ∧
    (atA (.txpush 0x41) 0).cur.upc = 0 ∧ (atA (.txpush 0x41) 0).openP = false := by decide

theorem witness_Txpush_violation :
    let s := { atA (.txpush 0x7A) 0 with f := { PortState.reset with busy := true, cmd := 0x4041, upc := 2 } }
    s.cur.upc = 0 ∧ s.stepping = .a ∧ s.openP = true := by decide

theorem witness_Txpush_store : (sStart (.txpush 0x41)).tx.head < (sStart (.txpush 0x41)).cfg.nTx ∧
    (txAt (atF (.txpush 0x41) 1) [] 3 1).cur.upc = 1 ∧ (txAt (atF (.txpush 0x41) 1) [] 3 1).tx.head < 4 ∧
    (atF (.txpush 0x41) 2).cur.upc = 2 := by decide

theorem witness_Rxpop :
    let s := rxAt (atF .rxpop 1) [(3, 0x76)] 0 3
    (atF .rxpop 0).cur.upc = 0 ∧ (atF .rxpop 0).stepping = .f ∧ s.cur.upc = 1 ∧
    Memory.read (s.ring .rx).storage s.rx.tail = some 0x76 ∧ s.rx.tail < s.cap .rx ∧ (atF .rxpop 2).cur.upc = 2 := by decide

theorem witness_Rxpop_load : (rxAt (atF .rxpop 1) [(3, 0x76)] 0 3).memRead .rx 3 = .ok 0x76 := by rfl

theorem witness_Rxpop_violation :
    let s := { atA .rxpop 0 with f := { PortState.reset with busy := true, cmd := 0x3000, upc := 2 } }
    s.cur.upc = 0 ∧ s.stepping = .a ∧ s.openC = true := by decide

theorem witness_Rd_violation : sViolation.cur.upc = 1 ∧ sViolation.stepping = .a ∧ sViolation.openC = true := by decide

theorem witness_Rd_load : (rxAt (atA .rd 2) [(3, 0x76)] 0 3).cur.upc = 2 ∧
    (rxAt (atA .rd 2) [(3, 0x76)] 0 3).memRead .rx 3 = .ok 0x76 := ⟨by decide, by rfl⟩

theorem witness_Rd_others :
    (atF .rd 0).cur.upc = 0 ∧ (atF .rd 1).cur.upc = 1 ∧ (atF .rd 1).stepping = .f ∧ (atF .rd 3).cur.upc = 3 ∧
    (atA .rd 4).cur.upc = 4 ∧ (atA .rd 5).cur.upc = 5 ∧ (atA .rd 1).openC = false := by decide

theorem witness_Wr_violation :
    let s := { atA (.wr 0x7A) 3 with f := { PortState.reset with busy := true, cmd := 0x4041, upc := 1 } }
    s.cur.upc = 3 ∧ s.stepping = .a ∧ s.openP = true := by decide

theorem witness_Wr_store :
    (txAt (atA (.wr 0x41) 4) [] 3 1).cur.upc = 4 ∧
    (txAt (atA (.wr 0x41) 4) [] 3 1).tx.head < (txAt (atA (.wr 0x41) 4) [] 3 1).cfg.nTx := by decide

theorem witness_Wr_others :
    (atF (.wr 0x0A) 0).cur.upc = 0 ∧ (atF (.wr 0x0A) 1).cur.upc = 1 ∧ (atF (.wr 0x0A) 2).cur.upc = 2 ∧
    (atF (.wr 0x0A) 3).cur.upc = 3 ∧ (atA (.wr 0x0A) 3).openP = false ∧ (atF (.wr 0x0A) 5).cur.upc = 5 ∧
    (atF (.wr 0x0A) 6).cur.upc = 6 ∧ (atF (.wr 0x0A) 7).cur.upc = 7 ∧ (atF (.wr 0x0A) 8).cur.upc = 8 ∧
    (atF (.wr 0x0A) 9).cur.upc = 9 := by decide

theorem witness_WhereACommandStops_index : exec .nop (atF .nop 1) = .fault .undefinedMicroStep := rfl

theorem witness_WhereACommandStops_slot : exec .rd (atF .rd 2) = .fault (.unwrittenSlot .rx) := rfl

theorem witness_WhereACommandStops_bounds :
    exec .rxpop (rxAt (atF .rxpop 1) [] 0 4) = .fault (.noSuchSlot .rx) ∧
    exec (.wr 0x41) (txAt (atF (.wr 0x41) 4) [] 4 0) = .fault (.noSuchSlot .tx) := ⟨rfl, rfl⟩

theorem witness_TxpushAlone_room :
    let s := sStart (.txpush 0x33)
    Inv s ∧ s.running s.stepping = some (.txpush 0x33) ∧ s.cur.upc = 0 ∧ s.stepping = .f ∧ s.fullP .tx = false :=
  ⟨inv_sStart_txpush, by decide⟩

theorem witness_TxpushAlone_full :
    let s := txAt (atA (.txpush 0x33) 0) [(0, 0x31), (1, 0x32), (2, 0x33)] 3 0
    Inv s ∧ s.running s.stepping = some (.txpush 0x33) ∧ s.cur.upc = 0 ∧ s.openP = false ∧ s.fullP .tx = true :=
  ⟨by apply inv_of <;> decide, by decide⟩

theorem witness_RdAlone_empty :
    (atA .rd 0).cur.busy = true ∧ (atA .rd 0).cur.upc = 0 ∧ (atA .rd 0).openC = false ∧
    (atA .rd 0).emptyC .rx = true := by decide

theorem witness_RdAlone_data :
    (sStart .rd).cur.busy = true ∧ (sStart .rd).cur.upc = 0 ∧ (sStart .rd).stepping = .f ∧
    (sStart .rd).emptyC .rx = false ∧ (sStart .rd).memRead .rx 3 = .ok 0x76 :=
  ⟨by decide, by decide, by decide, by decide, by rfl⟩

theorem witness_WrAlone_lf :
    let s := sStart (.wr 0x0A)
    s.cur.busy = true ∧ s.cur.upc = 0 ∧ s.tx.head < s.cfg.nTx ∧ s.stepping = .f ∧ s.ctrl.crlf = true := by decide

theorem witness_WrAlone_session :
    let s := txAt (atA (.wr 0x61) 0) [] 3 0
    s.cur.busy = true ∧ s.cur.upc = 0 ∧ s.tx.head < s.cfg.nTx ∧ s.openP = false := by decide

theorem witness_EveryCommandEnds_own_step :
    (step sRelease = .next (nextOf sRelease) ∧ (sRelease.port .f).busy = true ∧ (nextOf sRelease).stepsLeft .f = 1 ∧
      sRelease.stepsLeft .f = 2) ∧
    step { sRelease with f := { sRelease.f with upc := 4 } }
      = .next (nextOf { sRelease with f := { sRelease.f with upc := 4 } }) := ⟨⟨rfl, by decide⟩, rfl⟩

/-- Port F waits inside its WR while port A steps. -/
theorem witness_EveryCommandEnds_other_step :
    step sSession = .next (nextOf sSession) ∧ (sSession.port .f).busy = true ∧
      (nextOf sSession).stepsLeft .f = sSession.stepsLeft .f := ⟨rfl, by decide⟩

theorem witness_EveryCommandEnds_bound : ((sStart (.wr 0x0A)).port .f).upc = 0 ∧
    (sStart (.wr 0x0A)).stepsLeft .f = 17 := by decide

theorem witness_EveryCommandEnds_alone :
    let s := sStart (.wr 0x0A)
    Inv s ∧ s.running s.stepping = some (.wr 0x0A) ∧ s.cur.upc = 0 ∧ s.stepping = .f := ⟨inv_sStart_wr, by decide⟩

/-- RD on port A over an RXPOP of port F past its check. -/
theorem witness_EveryCommandEnds_violation :
    let s := { sViolation with a := { sViolation.a with upc := 0 } }
    Inv s ∧ s.running s.stepping = some .rd ∧ s.cur.upc = 0 ∧ s.meetsOpenEnd .rd :=
  ⟨by apply inv_of <;> decide, by decide, by decide, rfl, by decide⟩

/-- RD on port A over a TXPUSH of port F past its check. -/
theorem witness_EveryCommandEnds_otherEnd :
    let s := { atA .rd 0 with f := { PortState.reset with busy := true, cmd := 0x4041, upc := 1 } }
    Inv s ∧ s.running s.stepping = some .rd ∧ s.cur.upc = 0 ∧ s.openP = true ∧ s.openC = false :=
  ⟨by apply inv_of <;> decide, by decide⟩

theorem witness_Responses :
    nextWith (step { sRelease with f := { sRelease.f with upc := 4 } }) (fun t => t.rspTrace == [(.f, 0x0176)]) = true := by
  decide

theorem witness_frames_one_step :
    (∃ t, exec .stat (atF .stat 0) = .next t) ∧ (∃ t, exec (.ptrr 7) (atA (.ptrr 7) 0) = .next t) ∧
    (∃ t, exec (.ctlc 0xFF) (atF (.ctlc 0xFF) 0) = .next t) ∧ (∃ t, exec (.fstep 0x1B) (atF (.fstep 0x1B) 0) = .next t) ∧
    ∃ t, exec .cack (atA .cack 0) = .next t := ⟨⟨_, rfl⟩, ⟨_, rfl⟩, ⟨_, rfl⟩, ⟨_, rfl⟩, ⟨_, rfl⟩⟩

theorem witness_frames_several_steps :
    (∃ t, exec .rd sRelease = .next t) ∧ (∃ t, exec .rxpop (rxAt (atF .rxpop 1) [(3, 0x76)] 0 3) = .next t) ∧
    (∃ t, exec (.txpush 0x41) (txAt (atF (.txpush 0x41) 1) [] 3 1) = .next t) ∧
    ∃ t, exec (.wr 0x41) (txAt (atF (.wr 0x41) 4) [] 3 1) = .next t := ⟨⟨_, rfl⟩, ⟨_, rfl⟩, ⟨_, rfl⟩, ⟨_, rfl⟩⟩

theorem witness_Rxp_enabled :
    sReceive.cfg.wf = true ∧ sReceive.script = .rxp 0x76 :: [] ∧ sReceive.rx.head < sReceive.cfg.nRx ∧
    sReceive.insvc = .none ∧ sReceive.ctrl.imask = false ∧ sReceive.ctrl.rxie = true := by decide

theorem witness_Rxp_disabled :
    let s := { rxAt State.reset [] 3 0 with script := [.rxp 0x76] }
    s.cfg.wf = true ∧ s.script = .rxp 0x76 :: [] ∧ s.rx.head < s.cfg.nRx ∧ s.ctrl.rxie = false := by decide

theorem witness_Txc_send :
    let s := { sPublish with script := [.txc] }
    s.cfg.wf = true ∧ s.script = .txc :: [] ∧ s.insvc = .none ∧ s.ctrl.imask = false ∧ s.ctrl.txie = true ∧
    s.headView .tx ≠ s.tx.tail ∧ Memory.read s.tx.storage s.tx.tail = some 0x61 ∧ s.tx.tail < s.cap .tx := by decide

theorem witness_Txc_stop :
    let s := { State.reset with ctrl := ⟨false, true, true, false⟩, script := [.txc] }
    s.cfg.wf = true ∧ s.script = .txc :: [] ∧ s.insvc = .none ∧ s.ctrl.imask = false ∧ s.ctrl.txie = true ∧
    s.headView .tx = s.tx.tail ∧ s.cfg.txAutostop = true := by decide

theorem witness_Txc_none :
    let s := { sLag with script := [.txc] }
    s.cfg.wf = true ∧ s.script = .txc :: [] ∧ s.headView .tx = s.tx.tail ∧ s.cfg.txAutostop = false := by decide

theorem witness_Session_enter :
    let s := { atF (.wr 0x61) 8 with script := [.aEnter] }
    s.cfg.wf = true ∧ s.script = .aEnter :: [] ∧ s.insvc = .none ∧ s.ctrl.imask = false := by decide

theorem witness_Session_leave :
    let s := { State.reset with insvc := .a, script := [.aLeave] }
    s.cfg.wf = true ∧ s.script = .aLeave :: [] ∧ s.insvc = .a ∧ s.a.busy = false := by decide

theorem witness_ASession : sSession.insvc = .a ∧ ∃ t, step sSession = .next t := ⟨rfl, _, rfl⟩

theorem witness_ParametersAndIdlePortA : sPublish.insvc = .none ∧ ∃ t, step sPublish = .next t := ⟨rfl, _, rfl⟩

theorem witness_Quirk :
    let s : State := { State.reset with
      cfg := { Config.reference with quirkClears := true }
      ctrl := ⟨true, true, true, false⟩
      script := [.quirk .rxie] }
    s.cfg.wf = true ∧ s.script = .quirk .rxie :: [] ∧ s.cfg.quirkClears = true ∧ s.ctrl.rxie = true ∧
    ({ s with script := [.quirk .txie] }).enabled (.quirk .txie) = true := by decide

theorem witness_WhoWritesTheFilterFlags_set :
    nextWith (step { atF (.fstep 0x18) 0 with escf := true })
      (fun t => !t.escf && t.cancelPend && t.cancelCount == 1) = true := by decide

theorem witness_WhoWritesTheFilterFlags_clear :
    nextWith (step { atF .cack 0 with cancelPend := true }) (fun t => !t.cancelPend) = true := by decide

theorem witness_WhoMovesThePointers :
    nextWith (step sPublish) (fun t => t.tx.head == 2) = true ∧
    nextWith (step sRelease) (fun t => t.rx.tail == 0) = true ∧
    nextWith (step sReceive) (fun t => t.rx.head == 1) = true ∧
    nextWith (step { sPublish with script := [.txc] }) (fun t => t.tx.tail == 1) = true := by decide

theorem witness_WhoWritesASlot_rx :
    (∃ t, step sReceive = .next t ∧ t.memRead .rx 0 = .ok 0x76) ∧ sReceive.memRead .rx 0 = .error (.unwrittenSlot .rx) :=
  ⟨⟨_, rfl, by rfl⟩, by rfl⟩

theorem witness_WhoWritesASlot_tx :
    (∃ t, step (txAt (atF (.txpush 0x41) 1) [] 3 1) = .next t ∧ t.memRead .tx 3 = .ok 0x41) ∧
    (txAt (atF (.txpush 0x41) 1) [] 3 1).memRead .tx 3 = .error (.unwrittenSlot .tx) := ⟨⟨_, rfl, by rfl⟩, by rfl⟩

theorem witness_WhoWritesCtrl :
    nextWith (step (atF (.wr 0x61) 8)) (fun t => t.ctrl.txie) = true ∧
    nextWith (step (atF .rd 0)) (fun t => t.ctrl.imask) = true ∧
    nextWith (step (atA (.ctlc 0x04) 0)) (fun t => !t.ctrl.crlf) = true := by decide

theorem witness_Quiescent : State.reset.quiescent = true ∧ sLag.quiescent = false := by decide

end Sys2Proof.Tests
end

section
/-! SUPPORT. Rules that proofs about whole steps go by: what an update of one port leaves of the other, and what no
micro-step and no step writes (60_exceptions.md R253, R254). -/

namespace Sys2Proof.Machine

/-! ### The latches of the port that may not step -/

theorem Port.other_ne (x : Port) : x.other ≠ x := by
  cases x <;> decide

@[simp] theorem State.setPort_other (s : State) (x : Port) (p : PortState) :
    (s.setPort x p).port x.other = s.port x.other :=
  s.setPort_port_of_ne p x.other_ne

theorem State.setPort_undo (s : State) (x : Port) (p : PortState) : (s.setPort x p).setPort x (s.port x) = s := by
  cases x <;> rfl

theorem State.port_congr {s t : State} (hf : t.f = s.f) (ha : t.a = s.a) (x : Port) : t.port x = s.port x := by
  cases x
  · exact hf
  · exact ha

@[simp] theorem State.setCur_other (s : State) (p : PortState) :
    (s.setCur p).port s.stepping.other = s.port s.stepping.other :=
  s.setPort_other s.stepping p

@[simp] theorem State.respond_other (s : State) (w : Word) :
    (s.respond w).port s.stepping.other = s.port s.stepping.other :=
  (State.port_congr rfl rfl _).trans (s.setCur_other { s.cur with rsp := w, busy := false })

/-! ### What no micro-step writes -/

/-- `t` differs from `s` only where a micro-step may write: the parameters, `insvc`, the choices to come, both wire
traces, the two pointers of the wire's side and the latches of the port that may not step are those of `s`. -/
structure MicroFrame (s t : State) : Prop where
  cfg : t.cfg = s.cfg
  insvc : t.insvc = s.insvc
  script : t.script = s.script
  txTrace : t.txTrace = s.txTrace
  rxTrace : t.rxTrace = s.rxTrace
  rxHead : t.rx.head = s.rx.head
  txTail : t.tx.tail = s.tx.tail
  other : t.port s.stepping.other = s.port s.stepping.other

namespace MicroFrame

theorem refl (s : State) : MicroFrame s s := by
  constructor <;> rfl

theorem trans {s t u : State} (h : MicroFrame s t) (k : MicroFrame t u) : MicroFrame s u where
  cfg := k.cfg.trans h.cfg
  insvc := k.insvc.trans h.insvc
  script := k.script.trans h.script
  txTrace := k.txTrace.trans h.txTrace
  rxTrace := k.rxTrace.trans h.rxTrace
  rxHead := k.rxHead.trans h.rxHead
  txTail := k.txTail.trans h.txTail
  other := by
    have hk := k.other
    rw [State.stepping_congr h.insvc] at hk
    exact hk.trans h.other

theorem setCur (s : State) (p : PortState) : MicroFrame s (s.setCur p) := by
  constructor <;> simp

theorem goto (s : State) (k : BitVec 4) : MicroFrame s (s.goto k) :=
  setCur s _

theorem respond (s : State) (w : Word) : MicroFrame s (s.respond w) := by
  constructor <;> simp

theorem setCtrl (s : State) (c : Ctrl) : MicroFrame s { s with ctrl := c } := by
  constructor <;> rfl

theorem enter (s : State) : MicroFrame s s.enter := by
  constructor <;> simp [State.port_congr s.enter_f s.enter_a]

theorem exit (s : State) : MicroFrame s s.exit := by
  constructor <;> simp [State.port_congr s.exit_f s.exit_a]

theorem kick (s : State) : MicroFrame s s.kick :=
  setCtrl s _

/-- PPUB on `TX` moves the pointer of the processor's side only (40_ring.md R130). -/
theorem ppubTx (s : State) : MicroFrame s (s.ppub .tx) := by
  constructor <;> rfl

/-- CREL on `RX` moves the pointer of the processor's side only (40_ring.md R133). -/
theorem crelRx (s : State) : MicroFrame s (s.crel .rx) := by
  constructor <;> rfl

theorem loadT {s t : State} {b : RingId} {k : BitVec 4} (h : s.loadT b k = .next t) : MicroFrame s t := by
  obtain ⟨v, -, -, rfl⟩ := State.loadT_next h
  exact (setCur s _).trans (goto _ _)

theorem storeTx {s t : State} {v : Byte} {k : BitVec 4} (h : s.storeThen .tx v k = .next t) : MicroFrame s t := by
  obtain ⟨-, rfl⟩ := State.storeThen_next h
  have store (m : Memory) : MicroFrame s (s.setRing .tx { s.ring .tx with storage := m }) := by
    constructor <;> rfl
  exact (store _).trans (goto _ _)

theorem pchk {s u v t : State} (h : s.pchk u v = .next t) (hu : MicroFrame s u) (hv : MicroFrame s v) :
    MicroFrame s t := by
  obtain ⟨-, ⟨-, rfl⟩ | ⟨-, rfl⟩⟩ := State.pchk_next h
  · exact hu
  · exact hv

theorem cchk {s u v t : State} (h : s.cchk u v = .next t) (hu : MicroFrame s u) (hv : MicroFrame s v) :
    MicroFrame s t := by
  obtain ⟨-, ⟨-, rfl⟩ | ⟨-, rfl⟩⟩ := State.cchk_next h
  · exact hu
  · exact hv

theorem single {s u t : State} (h : single s u = .next t) (hu : MicroFrame s u) : MicroFrame s t := by
  obtain ⟨-, rfl⟩ := single_next h
  exact hu

/-- The filter writes `ESCF`, `CANCEL_PEND` and the cancel trace alone (43_filter.md R191). -/
theorem filter (s : State) (c : Byte) : MicroFrame s (s.filter c).2 := by
  rcases s.filter_cases c with ⟨-, -, h⟩ | ⟨-, -, h⟩ | ⟨-, -, h⟩ | ⟨-, -, h⟩ <;> rw [h] <;> constructor <;> rfl

theorem xlat (s : State) (d : Byte) : MicroFrame s (s.xlat d) := by
  unfold State.xlat
  split <;> exact setCur s _

theorem filt (s : State) : MicroFrame s s.filt := by
  have hf := filter s s.cur.c
  unfold State.filt
  split <;> rename_i heq <;> rw [heq] at hf <;> exact hf.trans (goto _ _)

theorem nextByte (s : State) : MicroFrame s s.nextByte := by
  unfold State.nextByte
  split
  · exact (setCur s _).trans (goto _ _)
  · exact respond s _

/-! ### The commands -/

theorem execRd {s t : State} (h : execRd s = .next t) : MicroFrame s t := by
  unfold Machine.execRd at h
  split at h
  · cases h; exact (enter s).trans (goto _ _)
  · exact cchk h (goto s _) (goto s _)
  · exact loadT h
  · cases h; exact (crelRx s).trans (goto _ _)
  · cases h; exact (exit s).trans (respond _ _)
  · cases h; exact (exit s).trans (respond _ _)
  · cases h

theorem execWr {d : Byte} {s t : State} (h : execWr d s = .next t) : MicroFrame s t := by
  unfold Machine.execWr at h
  split at h
  · cases h; exact (xlat s d).trans (goto _ _)
  · cases h; exact filt s
  · cases h; exact (enter s).trans (goto _ _)
  · exact pchk h (goto s _) (goto s _)
  · exact storeTx h
  · cases h; exact (ppubTx s).trans (goto _ _)
  · cases h; exact (exit s).trans (goto _ _)
  · cases h; exact (exit s).trans (goto _ _)
  · cases h; exact (kick s).trans (goto _ _)
  · cases h; exact nextByte s
  · cases h

theorem execTxpush {d : Byte} {s t : State} (h : execTxpush d s = .next t) : MicroFrame s t := by
  unfold Machine.execTxpush at h
  split at h
  · exact pchk h (respond s _) (goto s _)
  · exact storeTx h
  · cases h; exact (ppubTx s).trans (respond _ _)
  · cases h

theorem execRxpop {s t : State} (h : execRxpop s = .next t) : MicroFrame s t := by
  unfold Machine.execRxpop at h
  split at h
  · exact cchk h (respond s _) (goto s _)
  · exact loadT h
  · cases h; exact (crelRx s).trans (respond _ _)
  · cases h

theorem execCack {s t : State} (h : execCack s = .next t) : MicroFrame s t :=
  have clear : MicroFrame s { s with cancelPend := false } := by constructor <;> rfl
  single h (clear.trans (respond _ _))

theorem exec {i : Instr} {s t : State} (h : exec i s = .next t) : MicroFrame s t := by
  cases i with
  | rd => exact execRd h
  | wr d => exact execWr h
  | rxpop => exact execRxpop h
  | txpush d => exact execTxpush h
  | cack => exact execCack h
  | fstep d => exact single h ((filter s d).trans (respond _ _))
  | ctls d => exact single h ((setCtrl s _).trans (respond _ _))
  | ctlc d => exact single h ((setCtrl s _).trans (respond _ _))
  | nop | rxempty | txfull | ctlr | stat | ptrr => exact single h (respond s _)

/-- A micro-step of any word, legal or not (30_encoding.md R97). -/
theorem runMicro {s t : State} (h : s.runMicro = .next t) : MicroFrame s t := by
  unfold State.runMicro at h
  split at h
  · exact exec h
  · exact single h (respond s _)

end MicroFrame

/-! ### What no step writes -/

/-- `t` has the parameters of `s` and the latches of the port that may not step in `s` (60_exceptions.md R254). -/
def State.KeepsIdlePort (s t : State) : Prop :=
  t.cfg = s.cfg ∧ t.port s.stepping.other = s.port s.stepping.other

/-- A change that is in neither port and not in the parameters. -/
theorem State.KeepsIdlePort.of_latches {s t : State} (h : t.cfg = s.cfg ∧ t.f = s.f ∧ t.a = s.a) :
    s.KeepsIdlePort t :=
  let ⟨hcfg, hf, ha⟩ := h
  ⟨hcfg, State.port_congr hf ha _⟩

theorem State.pushAtomic_latches {s t : State} {b : RingId} {v : Byte} {r : Bool} (h : s.pushAtomic b v = .ok (r, t)) :
    t.cfg = s.cfg ∧ t.f = s.f ∧ t.a = s.a := by
  rcases State.pushAtomic_ok h with ⟨-, -, rfl⟩ | ⟨-, -, -, rfl⟩ <;> simp

theorem State.popAtomic_latches {s t : State} {b : RingId} {r : Option Byte} (h : s.popAtomic b = .ok (r, t)) :
    t.cfg = s.cfg ∧ t.f = s.f ∧ t.a = s.a := by
  rcases State.popAtomic_ok h with ⟨-, -, rfl⟩ | ⟨v, -, -, -, -, rfl⟩ <;> simp

theorem State.rxpStep_latches {s t : State} {v : Byte} (h : s.rxpStep v = .next t) :
    t.cfg = s.cfg ∧ t.f = s.f ∧ t.a = s.a := by
  obtain ⟨⟨r, u⟩, hpush, ht⟩ := onOk_next h
  have hu := State.pushAtomic_latches hpush
  cases ht
  exact hu

theorem State.txcStep_latches {s t : State} (h : s.txcStep = .next t) : t.cfg = s.cfg ∧ t.f = s.f ∧ t.a = s.a := by
  obtain ⟨⟨r, u⟩, hpop, ht⟩ := onOk_next h
  have hu := State.popAtomic_latches hpop
  cases r with
  | none => cases ht; exact hu
  | some v => cases ht; exact hu

/-- Acceptance writes the port that may step, a micro-step too, and every other step writes no port at all
(60_exceptions.md R247). -/
theorem State.perform_keepsIdlePort {s t : State} {e : Event} (he : s.enabled e = true) (h : s.perform e = .next t) :
    s.KeepsIdlePort t := by
  cases e with
  | accept x w =>
    cases h
    obtain ⟨rfl, -⟩ : s.stepping = x ∧ (s.port x).busy = false := by simpa [State.enabled, State.cmdReady] using he
    exact ⟨by simp, by simp [State.acceptWord]⟩
  | micro x => exact ⟨(MicroFrame.runMicro h).cfg, (MicroFrame.runMicro h).other⟩
  | aEnter => cases h; exact .of_latches ⟨rfl, rfl, rfl⟩
  | aLeave => cases h; exact .of_latches ⟨rfl, rfl, rfl⟩
  | rxp v => exact .of_latches (State.rxpStep_latches h)
  | txc => exact .of_latches (State.txcStep_latches h)
  | syn b p k => cases h; exact .of_latches (by simp)
  | quirk x => cases h; exact .of_latches (by simp)

/-- A step that is taken comes from a well-formed block, and is the step chosen. -/
theorem step_next {s t : State} (h : step s = .next t) : s.cfg.wf = true ∧ s.advance = .next t := by
  unfold step at h
  split at h
  · exact ⟨by assumption, h⟩
  · cases h

theorem step_keepsIdlePort {s t : State} (h : step s = .next t) : s.KeepsIdlePort t := by
  obtain ⟨-, hadv⟩ := step_next h
  rcases s.advance_cases with ⟨-, hs⟩ | ⟨e, -, -, hs⟩ | ⟨e, -, he, hs⟩ <;>
    rw [hs] at hadv
  · cases hadv; exact .of_latches ⟨rfl, rfl, rfl⟩
  · cases hadv; exact .of_latches ⟨rfl, rfl, rfl⟩
  · have hk : s.popScript.KeepsIdlePort t := State.perform_keepsIdlePort he hadv
    exact hk

end Sys2Proof.Machine
end

section
/-! SUPPORT. The width of a pointer as a logarithm, and pointers as bit vectors (00_scope.md R9, R15). -/

namespace Sys2Proof.Machine

/-- The table of R9: the powers of two on either side of a capacity. -/
theorem ptrWidth_bounds {n : Nat} (h2 : 2 ≤ n) (h256 : n ≤ 256) :
    2 ^ (ptrWidth n - 1) < n ∧ n ≤ 2 ^ ptrWidth n ∧ 1 ≤ ptrWidth n ∧ ptrWidth n ≤ 8 := by
  unfold ptrWidth
  split_ifs <;> norm_num <;> omega

theorem ptrWidth_eq_clog {n : Nat} (h2 : 2 ≤ n) (h256 : n ≤ 256) : ptrWidth n = Nat.clog 2 n := by
  obtain ⟨hlo, hhi, hpos, -⟩ := ptrWidth_bounds h2 h256
  have hle : Nat.clog 2 n ≤ ptrWidth n := Nat.clog_le_of_le_pow hhi
  have hlt : ptrWidth n - 1 < Nat.clog 2 n := (Nat.lt_clog_iff_pow_lt Nat.one_lt_two).mpr hlo
  omega

/-- `zext_8` loses nothing of an index that fits the width (30_encoding.md R96). -/
theorem pointerByte_toNat {w p : Nat} (hp : p < 2 ^ w) (hw : w ≤ 8) : (pointerByte w p).toNat = p := by
  have h8 : p < 2 ^ 8 := hp.trans_le (Nat.pow_le_pow_right (by decide) hw)
  rw [pointerByte, BitVec.toNat_setWidth, BitVec.toNat_ofNat, Nat.mod_eq_of_lt hp, Nat.mod_eq_of_lt h8]

theorem incN_last {n : Nat} : incN n (n - 1) = 0 := by
  unfold incN
  split <;> omega

/-- Where the capacity is `2^W`, the successor is the `W`-bit sum (40_ring.md R125). -/
theorem ofNat_incN_two_pow {w p : Nat} (hp : p < 2 ^ w) :
    BitVec.ofNat w (incN (2 ^ w) p) = BitVec.ofNat w p + 1 := by
  rw [incN_eq_mod hp]
  apply BitVec.eq_of_toNat_eq
  simp [BitVec.toNat_add]

end Sys2Proof.Machine
end

section
/-! PROOFS. The statements of 00_scope.md: parameters and ports, pointers, `respond` and the change of `upc`. -/

namespace Sys2Proof.Machine

/-- Settles O28: the table of widths is the rounded-up logarithm, and `incN` the successor modulo the capacity. -/
theorem pointerWidthAndIncrement : Obligations.PointerWidthAndIncrement := by
  refine ⟨fun n h2 h256 => ?_, fun n p hp => ⟨incN_eq_mod hp, incN_lt (by omega), incN_last, ?_⟩⟩
  · obtain ⟨-, hhi, hpos, h8⟩ := ptrWidth_bounds h2 h256
    have hmax : ptrWidth n = max 1 (Nat.clog 2 n) := by
      rw [← ptrWidth_eq_clog h2 h256, max_eq_right hpos]
    exact ⟨hmax, hpos, h8, fun p hp => ⟨hp.trans_le hhi, pointerByte_toNat (hp.trans_le hhi) h8⟩⟩
  · rintro w rfl
    exact ofNat_incN_two_pow hp

/-- Settles O54: with no session open port A is the port that may not step, and no step writes that port. -/
theorem parametersAndIdlePortAStay : Obligations.ParametersAndIdlePortAStay := by
  intro s t h
  obtain ⟨hcfg, hport⟩ := step_keepsIdlePort h
  refine ⟨hcfg, fun hidle => ?_⟩
  rw [State.stepping_eq_f.mpr hidle] at hport
  exact hport

/-- Settles O9: `respond` and `goto` are one port update each, and a port update is local and can be undone. -/
theorem respondAndGotoWriteOnePort : Obligations.RespondAndGotoWriteOnePort :=
  fun s _ _ => ⟨rfl, rfl, fun x p => ⟨s.setPort_port x p, s.setPort_other x p, s.setPort_undo x p⟩⟩

end Sys2Proof.Machine
end

section
/-! SUPPORT. Where a micro-program loads, stores and ends, and what can stop a micro-step there (10_state.md R28, R43;
20_memory.md R62; 60_exceptions.md R230). -/

namespace Sys2Proof.Machine

/-- At the micro-step that makes CLOD (40_ring.md R137, 42_channel.md R171). -/
def loading : Instr → Nat → Bool
  | .rxpop, k => k == 1
  | .rd, k => k == 2
  | _, _ => false

/-- At the micro-step that makes PSTO (40_ring.md R135, 42_channel.md R174). -/
def storing : Instr → Nat → Bool
  | .txpush _, k => k == 1
  | .wr _, k => k == 4
  | _, _ => false

theorem loading_iff {i : Instr} {u : BitVec 4} :
    loading i u.toNat = true ↔ (i = .rxpop ∧ u = 1) ∨ (i = .rd ∧ u = 2) := by
  cases i <;> simp [loading, ← BitVec.toNat_inj]

theorem storing_iff {i : Instr} {u : BitVec 4} :
    storing i u.toNat = true ↔ ((∃ d, i = .txpush d) ∧ u = 1) ∨ ((∃ d, i = .wr d) ∧ u = 4) := by
  cases i <;> simp [storing, ← BitVec.toNat_inj]

theorem popping_of_loading {i : Instr} {k : Nat} (h : loading i k = true) : popping i k = true := by
  cases i <;> simp_all [loading, popping]

theorem le_lastIndex_of_loading {i : Instr} {k : Nat} (h : loading i k = true) : k ≤ lastIndex i := by
  cases i <;> simp_all [loading, lastIndex]

theorem le_lastIndex_of_storing {i : Instr} {k : Nat} (h : storing i k = true) : k ≤ lastIndex i := by
  cases i <;> simp_all [storing, lastIndex]

/-- What a micro-step of `i` can answer, by where it stands: beyond the end, at a load, at a store, or elsewhere. -/
inductive ExecShape (i : Instr) (s : State) (r : Result) : Prop
  | pastEnd (hend : lastIndex i < s.cur.upc.toNat) (hr : r = .fault .undefinedMicroStep)
  | load (hl : loading i s.cur.upc.toNat = true) (hs : storing i s.cur.upc.toNat = false) (k : BitVec 4)
      (hr : r = s.loadT .rx k)
  | store (hl : loading i s.cur.upc.toNat = false) (hs : storing i s.cur.upc.toNat = true) (v : Byte) (k : BitVec 4)
      (hr : r = s.storeThen .tx v k)
  | plain (hend : s.cur.upc.toNat ≤ lastIndex i) (hl : loading i s.cur.upc.toNat = false)
      (hs : storing i s.cur.upc.toNat = false) (hr : (∃ t, r = .next t) ∨ r = .fault .spscViolation)

/-- An index of the micro-program of `i` that neither loads nor stores. -/
def plainAt (i : Instr) (k : Nat) : Bool :=
  decide (k ≤ lastIndex i) && !loading i k && !storing i k

namespace ExecShape

theorem ofPlain {i : Instr} {s : State} {r : Result} {k : Nat} (hk : s.cur.upc.toNat = k) (h : plainAt i k = true)
    (hr : (∃ t, r = .next t) ∨ r = .fault .spscViolation) : ExecShape i s r := by
  simp only [plainAt, Bool.and_eq_true, Bool.not_eq_true', decide_eq_true_eq] at h
  obtain ⟨⟨hend, hl⟩, hs⟩ := h
  subst hk
  exact .plain hend hl hs hr

theorem next {i : Instr} {s t : State} {k : Nat} (hk : s.cur.upc.toNat = k) (h : plainAt i k = true) :
    ExecShape i s (.next t) :=
  ofPlain hk h (.inl ⟨t, rfl⟩)

theorem pchk {i : Instr} {s u v : State} {k : Nat} (hk : s.cur.upc.toNat = k) (h : plainAt i k = true) :
    ExecShape i s (s.pchk u v) := by
  unfold State.pchk
  split
  · exact ofPlain hk h (.inr rfl)
  · exact next hk h

theorem cchk {i : Instr} {s u v : State} {k : Nat} (hk : s.cur.upc.toNat = k) (h : plainAt i k = true) :
    ExecShape i s (s.cchk u v) := by
  unfold State.cchk
  split
  · exact ofPlain hk h (.inr rfl)
  · exact next hk h

theorem single {i : Instr} {s u : State} (hlast : lastIndex i = 0) (h : plainAt i 0 = true) :
    ExecShape i s (single s u) := by
  unfold Machine.single
  split
  · exact next (by assumption) h
  · exact .pastEnd (by grind) rfl

theorem execRd (s : State) : ExecShape .rd s (execRd s) := by
  unfold Machine.execRd
  split
  · exact next (by assumption) rfl
  · exact cchk (by assumption) rfl
  · exact .load (by simp [*, loading]) rfl _ rfl
  · exact next (by assumption) rfl
  · exact next (by assumption) rfl
  · exact next (by assumption) rfl
  · exact .pastEnd (by simp only [lastIndex]; grind) rfl

theorem execWr (d : Byte) (s : State) : ExecShape (.wr d) s (execWr d s) := by
  unfold Machine.execWr
  split
  · exact next (by assumption) rfl
  · exact next (by assumption) rfl
  · exact next (by assumption) rfl
  · exact pchk (by assumption) rfl
  · exact .store rfl (by simp [*, storing]) _ _ rfl
  · exact next (by assumption) rfl
  · exact next (by assumption) rfl
  · exact next (by assumption) rfl
  · exact next (by assumption) rfl
  · exact next (by assumption) rfl
  · exact .pastEnd (by simp only [lastIndex]; grind) rfl

theorem execTxpush (d : Byte) (s : State) : ExecShape (.txpush d) s (execTxpush d s) := by
  unfold Machine.execTxpush
  split
  · exact pchk (by assumption) rfl
  · exact .store rfl (by simp [*, storing]) _ _ rfl
  · exact next (by assumption) rfl
  · exact .pastEnd (by simp only [lastIndex]; grind) rfl

theorem execRxpop (s : State) : ExecShape .rxpop s (execRxpop s) := by
  unfold Machine.execRxpop
  split
  · exact cchk (by assumption) rfl
  · exact .load (by simp [*, loading]) rfl _ rfl
  · exact next (by assumption) rfl
  · exact .pastEnd (by simp only [lastIndex]; grind) rfl

theorem exec (i : Instr) (s : State) : ExecShape i s (exec i s) := by
  cases i with
  | rd => exact execRd s
  | wr d => exact execWr d s
  | rxpop => exact execRxpop s
  | txpush d => exact execTxpush d s
  | nop | rxempty | txfull | fstep | ctlr | ctls | ctlc | stat | cack | ptrr => exact single rfl rfl

end ExecShape

/-! ### How a load and a store end -/

theorem State.memRead_error {s : State} {b : RingId} {i : Nat} {e : Fault} (h : s.memRead b i = .error e) :
    (e = .noSuchSlot b ∧ s.cap b ≤ i) ∨
    (e = .unwrittenSlot b ∧ i < s.cap b ∧ Memory.read (s.ring b).storage i = none) := by
  unfold State.memRead at h
  split at h
  · split at h <;> simp_all
  · simp_all

theorem State.memRead_noSuchSlot {s : State} {b : RingId} {i : Nat} :
    s.memRead b i = .error (.noSuchSlot b) ↔ s.cap b ≤ i := by
  refine ⟨fun h => ?_, fun h => by simp [State.memRead, Nat.not_lt.mpr h]⟩
  rcases State.memRead_error h with ⟨-, hi⟩ | ⟨he, -⟩
  · exact hi
  · cases he

/-- A load of a port stops with the fault of its read, and only with it. -/
theorem State.loadT_fault {s : State} {b : RingId} {k : BitVec 4} {e : Fault} :
    s.loadT b k = .fault e ↔ s.memRead b (s.ring b).tail = .error e := by
  unfold State.loadT State.clod
  cases s.memRead b (s.ring b).tail <;> simp

/-- A store of a port stops only outside the storage (20_memory.md R62). -/
theorem State.storeThen_fault {s : State} {b : RingId} {v : Byte} {k : BitVec 4} {e : Fault} :
    s.storeThen b v k = .fault e ↔ e = .noSuchSlot b ∧ s.cap b ≤ (s.ring b).head := by
  unfold State.storeThen State.psto State.memWrite
  split
  · simp [Nat.not_le.mpr ‹_›]
  · simp [Nat.not_lt.mp ‹_›, eq_comm]

theorem onOk_ne_refused {α : Type} {x : Except Fault α} {k : α → Result} {r : Refusal}
    (hk : ∀ a, k a ≠ .refused r) : onOk x k ≠ .refused r := by
  cases x with
  | ok a => exact hk a
  | error e => simp

theorem State.loadT_ne_refused {s : State} {b : RingId} {k : BitVec 4} {r : Refusal} : s.loadT b k ≠ .refused r :=
  onOk_ne_refused fun _ => by simp

theorem State.storeThen_ne_refused {s : State} {b : RingId} {v : Byte} {k : BitVec 4} {r : Refusal} :
    s.storeThen b v k ≠ .refused r :=
  onOk_ne_refused fun _ => by simp

/-! ### The stops of `exec`, one by one -/

theorem exec_ne_refused (i : Instr) (s : State) (r : Refusal) : exec i s ≠ .refused r := by
  rcases ExecShape.exec i s with ⟨-, hr⟩ | ⟨-, -, k, hr⟩ | ⟨-, -, v, k, hr⟩ | ⟨-, -, -, ⟨t, hr⟩ | hr⟩ <;> rw [hr]
  · simp
  · exact State.loadT_ne_refused
  · exact State.storeThen_ne_refused
  · simp
  · simp

/-- The faults of `exec` by where the micro-step stands. -/
theorem exec_fault_iff {i : Instr} {s : State} {e : Fault} (he : e ≠ .spscViolation) :
    exec i s = .fault e ↔
      (e = .undefinedMicroStep ∧ lastIndex i < s.cur.upc.toNat) ∨
      (loading i s.cur.upc.toNat = true ∧ s.memRead .rx s.rx.tail = .error e) ∨
      (storing i s.cur.upc.toNat = true ∧ e = .noSuchSlot .tx ∧ s.cfg.nTx ≤ s.tx.head) := by
  rcases ExecShape.exec i s with ⟨hend, hr⟩ | ⟨hl, hs, k, hr⟩ | ⟨hl, hs, v, k, hr⟩ |
    ⟨hend, hl, hs, ⟨t, hr⟩ | hr⟩ <;> rw [hr]
  · have hl : loading i s.cur.upc.toNat = false := by
      by_contra hc
      exact absurd (le_lastIndex_of_loading (by simpa using hc)) (by omega)
    have hs : storing i s.cur.upc.toNat = false := by
      by_contra hc
      exact absurd (le_lastIndex_of_storing (by simpa using hc)) (by omega)
    simp [hl, hs, hend, eq_comm]
  · simp [hl, hs, Nat.not_lt.mpr (le_lastIndex_of_loading hl), State.loadT_fault, State.ring]
  · simp [hl, hs, Nat.not_lt.mpr (le_lastIndex_of_storing hs), State.storeThen_fault, State.ring, State.cap, Config.cap]
  · simp [hl, hs, Nat.not_lt.mpr hend]
  · simp [hl, hs, Nat.not_lt.mpr hend, he.symm]

end Sys2Proof.Machine
end

section
/-! SUPPORT. What a step writes outside the latches of the ports: the rings, the filter's flags and `CTRL`, said once for
every micro-step and every agent (60_exceptions.md R247). -/

namespace Sys2Proof.Machine

/-! ### Where a port stands -/

theorem State.stands_of_running {s : State} {x : Port} {i : Instr} (h : s.running x = some i) (p : Instr → Nat → Bool) :
    s.stands x p = p i (s.port x).upc.toNat := by
  simp [State.stands, h]

theorem State.publishByte_of_running {s : State} {x : Port} {i : Instr} (h : s.running x = some i) :
    s.publishByte x = publishes (s.port x).c i (s.port x).upc.toNat := by
  simp [State.publishByte, h]

theorem State.running_of_decode {s : State} {x : Port} {i : Instr} (hb : (s.port x).busy = true)
    (hd : decode (s.port x).cmd = .ok i) : s.running x = some i := by
  simp [State.running, hb, hd]

@[simp] theorem State.popScript_stepping (s : State) : s.popScript.stepping = s.stepping := rfl

@[simp] theorem State.popScript_cur (s : State) : s.popScript.cur = s.cur := rfl

@[simp] theorem State.popScript_running (s : State) (x : Port) : s.popScript.running x = s.running x := rfl

@[simp] theorem State.popScript_stands (s : State) (x : Port) (p : Instr → Nat → Bool) :
    s.popScript.stands x p = s.stands x p := rfl

@[simp] theorem State.popScript_publishByte (s : State) (x : Port) : s.popScript.publishByte x = s.publishByte x := rfl

@[simp] theorem State.popScript_memRead (s : State) (b : RingId) (a : Nat) : s.popScript.memRead b a = s.memRead b a := by
  cases b <;> rfl

/-! ### The filter writes its own flags only (43_filter.md R191) -/

@[simp] theorem State.filter_rx (s : State) (c : Byte) : (s.filter c).2.rx = s.rx := by
  unfold State.filter
  split_ifs <;> rfl

@[simp] theorem State.filter_tx (s : State) (c : Byte) : (s.filter c).2.tx = s.tx := by
  unfold State.filter
  split_ifs <;> rfl

@[simp] theorem State.filter_ctrl (s : State) (c : Byte) : (s.filter c).2.ctrl = s.ctrl := by
  unfold State.filter
  split_ifs <;> rfl

@[simp] theorem State.filter_f (s : State) (c : Byte) : (s.filter c).2.f = s.f := by
  unfold State.filter
  split_ifs <;> rfl

@[simp] theorem State.filter_a (s : State) (c : Byte) : (s.filter c).2.a = s.a := by
  unfold State.filter
  split_ifs <;> rfl

@[simp] theorem State.filter_cfg (s : State) (c : Byte) : (s.filter c).2.cfg = s.cfg :=
  (MicroFrame.filter s c).cfg

/-! ### The state outside the latches -/

/-- `t` has the parameters, the rings, the filter's flags and `CTRL` of `s`. -/
structure SameShared (s t : State) : Prop where
  cfg : t.cfg = s.cfg
  rx : t.rx = s.rx
  tx : t.tx = s.tx
  escf : t.escf = s.escf
  cancelPend : t.cancelPend = s.cancelPend
  cancelCount : t.cancelCount = s.cancelCount
  ctrl : t.ctrl = s.ctrl

namespace SameShared

theorem refl (s : State) : SameShared s s := by
  constructor <;> rfl

theorem trans {s t u : State} (h : SameShared s t) (k : SameShared t u) : SameShared s u where
  cfg := k.cfg.trans h.cfg
  rx := k.rx.trans h.rx
  tx := k.tx.trans h.tx
  escf := k.escf.trans h.escf
  cancelPend := k.cancelPend.trans h.cancelPend
  cancelCount := k.cancelCount.trans h.cancelCount
  ctrl := k.ctrl.trans h.ctrl

theorem setPort (s : State) (x : Port) (p : PortState) : SameShared s (s.setPort x p) := by
  constructor <;> simp

theorem setCur (s : State) (p : PortState) : SameShared s (s.setCur p) :=
  setPort s _ p

theorem goto (s : State) (k : BitVec 4) : SameShared s (s.goto k) :=
  setCur s _

theorem respond (s : State) (w : Word) : SameShared s (s.respond w) := by
  constructor <;> simp

theorem pchk {s u v t : State} (h : s.pchk u v = .next t) (hu : SameShared s u) (hv : SameShared s v) :
    SameShared s t := by
  obtain ⟨-, ⟨-, rfl⟩ | ⟨-, rfl⟩⟩ := State.pchk_next h
  · exact hu
  · exact hv

theorem cchk {s u v t : State} (h : s.cchk u v = .next t) (hu : SameShared s u) (hv : SameShared s v) :
    SameShared s t := by
  obtain ⟨-, ⟨-, rfl⟩ | ⟨-, rfl⟩⟩ := State.cchk_next h
  · exact hu
  · exact hv

theorem loadT {s t : State} {b : RingId} {k : BitVec 4} (h : s.loadT b k = .next t) : SameShared s t := by
  obtain ⟨v, -, -, rfl⟩ := State.loadT_next h
  exact (setCur s _).trans (goto _ _)

theorem xlat (s : State) (d : Byte) : SameShared s (s.xlat d) := by
  unfold State.xlat
  split <;> exact setCur s _

theorem filt (s : State) : SameShared (s.filter s.cur.c).2 s.filt := by
  unfold State.filt
  split <;> rename_i heq <;> rw [heq] <;> exact goto _ _

theorem nextByte (s : State) : SameShared s s.nextByte := by
  unfold State.nextByte
  split
  · exact (setCur s _).trans (goto _ _)
  · exact respond s _

end SameShared

/-! ### The commands -/

/-- PSTO of `v` on ring `b` as a change of state. -/
def State.stored (s : State) (b : RingId) (v : Byte) : State :=
  s.setRing b { s.ring b with storage := Memory.write (s.ring b).storage (s.ring b).head v }

/-- What a micro-step of the port that may step writes outside its latches, and of which command at which index. -/
inductive MicroEffect (s : State) : State → Prop
  | none : MicroEffect s s
  | enter (h : s.running s.stepping = some .rd ∨ ∃ d, s.running s.stepping = some (.wr d)) : MicroEffect s s.enter
  | exit (h : s.running s.stepping = some .rd ∨ ∃ d, s.running s.stepping = some (.wr d)) : MicroEffect s s.exit
  | kick (h : ∃ d, s.running s.stepping = some (.wr d)) (hk : s.cur.upc = 8) : MicroEffect s s.kick
  | setCtrl (c : Ctrl)
      (h : (∃ d, s.running s.stepping = some (.ctls d)) ∨ ∃ d, s.running s.stepping = some (.ctlc d)) :
      MicroEffect s { s with ctrl := c }
  | filter (c : Byte) (h : s.stands s.stepping filtering = true) : MicroEffect s (s.filter c).2
  | clearCancel (h : s.running s.stepping = some .cack) : MicroEffect s { s with cancelPend := false }
  | store (v : Byte) (hlt : s.tx.head < s.cfg.nTx) (hpush : s.stands s.stepping pushing = true)
      (h : (s.running s.stepping = some (.txpush v) ∧ s.cur.upc = 1) ∨
        ((∃ d, s.running s.stepping = some (.wr d)) ∧ s.cur.upc = 4 ∧ v = s.cur.c)) :
      MicroEffect s (s.stored .tx v)
  | publish (h : (s.publishByte s.stepping).isSome = true) : MicroEffect s (s.ppub .tx)
  | release (h : s.stands s.stepping releasing = true) : MicroEffect s (s.crel .rx)

/-- `t` is what an effect of the micro-step leaves, but for latches and the response trace. -/
def MicroEffect.Upto (s t : State) : Prop :=
  ∃ u, MicroEffect s u ∧ SameShared u t

namespace MicroEffect

theorem upto_of_same {s t : State} (h : SameShared s t) : Upto s t :=
  ⟨s, .none, h⟩

section
variable {s t : State} {d : Byte}

theorem execRd (hrun : s.running s.stepping = some .rd) (h : execRd s = .next t) : Upto s t := by
  unfold Machine.execRd at h
  split at h
  · cases h; exact ⟨_, .enter (.inl hrun), .goto _ _⟩
  · exact upto_of_same (.cchk h (.goto s _) (.goto s _))
  · exact upto_of_same (.loadT h)
  · have hrel : s.stands s.stepping releasing = true := by
      rw [State.stands_of_running hrun, show (s.port s.stepping).upc.toNat = 3 by assumption]; rfl
    cases h; exact ⟨_, .release hrel, .goto _ _⟩
  · cases h; exact ⟨_, .exit (.inl hrun), .respond _ _⟩
  · cases h; exact ⟨_, .exit (.inl hrun), .respond _ _⟩
  · cases h

theorem execWr (hrun : s.running s.stepping = some (.wr d)) (h : execWr d s = .next t) : Upto s t := by
  have at_index {p : Instr → Nat → Bool} {k : Nat} (hk : s.cur.upc.toNat = k) (hp : p (.wr d) k = true) :
      s.stands s.stepping p = true := by
    rw [State.stands_of_running hrun]; exact hk ▸ hp
  unfold Machine.execWr at h
  split at h
  · cases h; exact upto_of_same ((SameShared.xlat s d).trans (.goto _ _))
  · cases h; exact ⟨_, .filter _ (at_index (by assumption) rfl), .filt s⟩
  · cases h; exact ⟨_, .enter (.inr ⟨d, hrun⟩), .goto _ _⟩
  · exact upto_of_same (.pchk h (.goto s _) (.goto s _))
  · rename_i hk
    obtain ⟨hlt, rfl⟩ := State.storeThen_next h
    exact ⟨_, .store _ hlt (at_index hk rfl) (.inr ⟨⟨d, hrun⟩, BitVec.eq_of_toNat_eq hk, rfl⟩), .goto _ _⟩
  · have hpub : (s.publishByte s.stepping).isSome = true := by
      rw [State.publishByte_of_running hrun, show (s.port s.stepping).upc.toNat = 5 by assumption]; rfl
    cases h; exact ⟨_, .publish hpub, .goto _ _⟩
  · cases h; exact ⟨_, .exit (.inr ⟨d, hrun⟩), .goto _ _⟩
  · cases h; exact ⟨_, .exit (.inr ⟨d, hrun⟩), .goto _ _⟩
  · cases h; exact ⟨_, .kick ⟨d, hrun⟩ (BitVec.eq_of_toNat_eq (by assumption)), .goto _ _⟩
  · cases h; exact upto_of_same (.nextByte s)
  · cases h

theorem execTxpush (hrun : s.running s.stepping = some (.txpush d)) (h : execTxpush d s = .next t) : Upto s t := by
  unfold Machine.execTxpush at h
  split at h
  · exact upto_of_same (.pchk h (.respond s _) (.goto s _))
  · rename_i hk
    have hpush : s.stands s.stepping pushing = true := by
      rw [State.stands_of_running hrun, show (s.port s.stepping).upc.toNat = 1 by assumption]; rfl
    obtain ⟨hlt, rfl⟩ := State.storeThen_next h
    exact ⟨_, .store _ hlt hpush (.inl ⟨hrun, BitVec.eq_of_toNat_eq hk⟩), .goto _ _⟩
  · have hpub : (s.publishByte s.stepping).isSome = true := by
      rw [State.publishByte_of_running hrun, show (s.port s.stepping).upc.toNat = 2 by assumption]; rfl
    cases h; exact ⟨_, .publish hpub, .respond _ _⟩
  · cases h

theorem execRxpop (hrun : s.running s.stepping = some .rxpop) (h : execRxpop s = .next t) : Upto s t := by
  unfold Machine.execRxpop at h
  split at h
  · exact upto_of_same (.cchk h (.respond s _) (.goto s _))
  · exact upto_of_same (.loadT h)
  · have hrel : s.stands s.stepping releasing = true := by
      rw [State.stands_of_running hrun, show (s.port s.stepping).upc.toNat = 2 by assumption]; rfl
    cases h; exact ⟨_, .release hrel, .respond _ _⟩
  · cases h

theorem execFstep (hrun : s.running s.stepping = some (.fstep d)) (h : execFstep d s = .next t) : Upto s t := by
  obtain ⟨hk, rfl⟩ := single_next h
  have hf : s.stands s.stepping filtering = true := by
    rw [State.stands_of_running hrun, show (s.port s.stepping).upc = 0 from hk]; rfl
  exact ⟨_, .filter d hf, .respond _ _⟩

/-- A command of one micro-step that only answers. -/
theorem answer {w : Word} (h : single s (s.respond w) = .next t) : Upto s t := by
  obtain ⟨-, rfl⟩ := single_next h
  exact upto_of_same (.respond s w)

theorem exec {i : Instr} (hrun : s.running s.stepping = some i) (h : exec i s = .next t) : Upto s t := by
  cases i with
  | rd => exact execRd hrun h
  | wr d => exact execWr hrun h
  | rxpop => exact execRxpop hrun h
  | txpush d => exact execTxpush hrun h
  | fstep d => exact execFstep hrun h
  | ctls d =>
    obtain ⟨-, rfl⟩ := single_next h
    exact ⟨_, .setCtrl _ (.inl ⟨d, hrun⟩), .respond _ _⟩
  | ctlc d =>
    obtain ⟨-, rfl⟩ := single_next h
    exact ⟨_, .setCtrl _ (.inr ⟨d, hrun⟩), .respond _ _⟩
  | cack =>
    obtain ⟨-, rfl⟩ := single_next h
    exact ⟨_, .clearCancel hrun, .respond _ _⟩
  | nop | rxempty | txfull | ctlr | stat | ptrr => exact answer h

theorem runMicro (hb : s.cur.busy = true) (h : s.runMicro = .next t) : Upto s t := by
  unfold State.runMicro at h
  split at h
  · exact exec (State.running_of_decode hb (by assumption)) h
  · exact answer h

end

end MicroEffect

/-! ### The agents -/

/-- What a step that is taken writes outside the latches, `insvc`, the traces and the choices to come. -/
inductive StepEffect (s : State) : Event → State → Prop
  | none (e : Event) : StepEffect s e s
  | micro {u : State} (h : MicroEffect s u) : StepEffect s (.micro s.stepping) u
  | receive (v : Byte) (hroom : s.fullP .rx = false) (hlt : s.rx.head < s.cfg.nRx) :
      StepEffect s (.rxp v) ((s.stored .rx v).ppub .rx)
  | stop (hauto : s.cfg.txAutostop = true) : StepEffect s .txc { s with ctrl := { s.ctrl with txie := false } }
  | send (hdata : s.emptyC .tx = false) : StepEffect s .txc (s.crel .tx)
  | syn (b : RingId) (p : PtrSel) (k : Nat) (hlag : s.cfg.sync.lagged = true) (hk : 1 ≤ k) (hle : k ≤ s.lag b p) :
      StepEffect s (.syn b p k) (s.synStep b p k)
  | quirk (e : Enable) : StepEffect s (.quirk e) (s.quirkStep e)

/-- `t` is what an effect of the step `e` leaves, but for latches, `insvc`, traces and choices. -/
def StepEffect.Upto (s : State) (e : Event) (t : State) : Prop :=
  ∃ u, StepEffect s e u ∧ SameShared u t

namespace StepEffect

theorem rxp {s t : State} {v : Byte} (hie : s.ctrl.rxie = true) (h : s.rxpStep v = .next t) : Upto s (.rxp v) t := by
  have hctrl : { s.ctrl with rxie := true } = s.ctrl := by rw [← hie]
  obtain ⟨⟨r, u⟩, hpush, ht⟩ := onOk_next h
  cases ht
  rcases State.pushAtomic_ok hpush with ⟨-, -, rfl⟩ | ⟨hroom, -, hlt, rfl⟩
  · exact ⟨s, .none _, ⟨rfl, rfl, rfl, rfl, rfl, rfl, hctrl⟩⟩
  · exact ⟨_, .receive v hroom hlt, ⟨rfl, rfl, rfl, rfl, rfl, rfl, hctrl⟩⟩

theorem txc {s t : State} (hie : s.ctrl.txie = true) (hen : s.emptyC .tx = false ∨ s.cfg.txAutostop = true)
    (h : s.txcStep = .next t) : Upto s .txc t := by
  have hctrl : { s.ctrl with txie := true } = s.ctrl := by rw [← hie]
  obtain ⟨⟨r, u⟩, hpop, ht⟩ := onOk_next h
  rcases State.popAtomic_ok hpop with ⟨hempty, rfl, rfl⟩ | ⟨v, hdata, rfl, -, -, rfl⟩ <;> cases ht
  · have hauto : s.cfg.txAutostop = true := hen.resolve_left fun hne => Bool.noConfusion (hne.symm.trans hempty)
    exact ⟨_, .stop hauto, ⟨rfl, rfl, rfl, rfl, rfl, rfl, rfl⟩⟩
  · exact ⟨_, .send hdata, ⟨rfl, rfl, rfl, rfl, rfl, rfl, hctrl⟩⟩

theorem perform {s t : State} {e : Event} (he : s.enabled e = true) (h : s.perform e = .next t) : Upto s e t := by
  cases e with
  | accept x w => cases h; exact ⟨s, .none _, .setPort s _ _⟩
  | micro x =>
    obtain ⟨rfl, hb⟩ : s.stepping = x ∧ (s.port x).busy = true := by simpa [State.enabled] using he
    obtain ⟨u, hu, hut⟩ := MicroEffect.runMicro hb h
    exact ⟨u, .micro hu, hut⟩
  | aEnter => cases h; exact ⟨s, .none _, ⟨rfl, rfl, rfl, rfl, rfl, rfl, rfl⟩⟩
  | aLeave => cases h; exact ⟨s, .none _, ⟨rfl, rfl, rfl, rfl, rfl, rfl, rfl⟩⟩
  | rxp v =>
    obtain ⟨-, hie⟩ : s.interruptible = true ∧ s.ctrl.rxie = true := by simpa [State.enabled] using he
    exact rxp hie h
  | txc =>
    obtain ⟨⟨-, hie⟩, hen⟩ : (s.interruptible = true ∧ s.ctrl.txie = true) ∧
        (s.emptyC .tx = false ∨ s.cfg.txAutostop = true) := by simpa [State.enabled] using he
    exact txc hie hen h
  | syn b p k =>
    obtain ⟨⟨⟨hlag, -⟩, hk⟩, hle⟩ : ((s.cfg.sync.lagged = true ∧ (s.ring b).viewReg p ≠ (s.ring b).pointer p) ∧ 1 ≤ k) ∧
        k ≤ s.lag b p := by simpa [State.enabled] using he
    cases h; exact ⟨_, .syn b p k hlag hk hle, .refl _⟩
  | quirk x => cases h; exact ⟨_, .quirk x, .refl _⟩

end StepEffect

/-- Everything a step that answers can do: wait, drop the choice, or perform it. -/
theorem step_cases {s t : State} (h : step s = .next t) :
    (s.nextEvent = none ∧ t = s) ∨
    ∃ e, s.nextEvent = some e ∧
      (t = s.popScript ∨ s.popScript.enabled e = true ∧ s.popScript.perform e = .next t) := by
  obtain ⟨-, hadv⟩ := step_next h
  rcases s.advance_cases with ⟨hnone, hs⟩ | ⟨e, hev, -, hs⟩ | ⟨e, hev, he, hs⟩ <;> rw [hs] at hadv
  · cases hadv; exact .inl ⟨hnone, rfl⟩
  · cases hadv; exact .inr ⟨e, hev, .inl rfl⟩
  · exact .inr ⟨e, hev, .inr ⟨he, hadv⟩⟩

/-- The state outside the latches after a step: as it was, or as an effect of the chosen step leaves it. -/
theorem step_effect {s t : State} (h : step s = .next t) :
    SameShared s t ∨ ∃ e, s.nextEvent = some e ∧ StepEffect.Upto s.popScript e t := by
  rcases step_cases h with ⟨-, rfl⟩ | ⟨e, hev, rfl | ⟨he, hp⟩⟩
  · exact .inl (.refl _)
  · exact .inl ⟨rfl, rfl, rfl, rfl, rfl, rfl, rfl⟩
  · exact .inr ⟨e, hev, StepEffect.perform he hp⟩

end Sys2Proof.Machine
end

section
/-! PROOFS. Where a command stops (10_state.md R28, R43); who writes the pointers, the slots, the flags of the filter and
`CTRL` (R31 to R42), each read off the effect of the step that was taken; the mask; the step of a port (R28, R30). -/

namespace Sys2Proof.Machine

/-! ### Stops -/

/-- Settles O39: each stop belongs to one place of the micro-program, the end, the load or the store. -/
theorem whereACommandStops : Obligations.WhereACommandStops := by
  intro i s
  refine ⟨exec_ne_refused i s, ?_, fun b => ?_, fun b => ?_⟩
  · have hread : s.memRead .rx s.rx.tail ≠ .error .undefinedMicroStep := fun h => by
      rcases State.memRead_error h with ⟨he, -⟩ | ⟨he, -⟩ <;> cases he
    simp [exec_fault_iff, hread]
  · have hb : s.memRead .rx s.rx.tail = .error (.unwrittenSlot b) → b = .rx := fun h => by
      rcases State.memRead_error h with ⟨he, -⟩ | ⟨he, -⟩ <;> cases he
      rfl
    rw [exec_fault_iff (by simp), loading_iff]
    constructor
    · rintro (⟨he, -⟩ | ⟨hl, hread⟩ | ⟨-, he, -⟩)
      · cases he
      · obtain rfl := hb hread
        exact ⟨rfl, hl, hread⟩
      · cases he
    · rintro ⟨rfl, hl, hread⟩
      exact .inr (.inl ⟨hl, hread⟩)
  · have hb : s.memRead .rx s.rx.tail = .error (.noSuchSlot b) ↔ b = .rx ∧ s.cfg.nRx ≤ s.rx.tail := by
      refine ⟨fun h => ?_, ?_⟩
      · rcases State.memRead_error h with ⟨he, hlen⟩ | ⟨he, -⟩ <;> cases he
        exact ⟨rfl, hlen⟩
      · rintro ⟨rfl, hlen⟩
        exact State.memRead_noSuchSlot.mpr hlen
    rw [exec_fault_iff (by simp), loading_iff, storing_iff, hb]
    constructor
    · rintro (⟨he, -⟩ | ⟨hl, rfl, hlen⟩ | ⟨hs, he, hlen⟩)
      · cases he
      · exact .inl ⟨rfl, hl, hlen⟩
      · cases he
        exact .inr ⟨rfl, hs, hlen⟩
    · rintro (⟨rfl, hl, hlen⟩ | ⟨rfl, hs, hlen⟩)
      · exact .inr (.inl ⟨hl, rfl, hlen⟩)
      · exact .inr (.inr ⟨hs, rfl, hlen⟩)

/-! ### Pointers -/

/-- A micro-step moves a pointer of the processor's side only, by one, at a publish or a release. -/
theorem MicroEffect.pointers {s u : State} (h : MicroEffect s u) :
    (u.tx.head = s.tx.head ∨ (u.tx.head = incN s.cfg.nTx s.tx.head ∧ (s.publishByte s.stepping).isSome = true)) ∧
    u.tx.tail = s.tx.tail ∧ u.rx.head = s.rx.head ∧
    (u.rx.tail = s.rx.tail ∨ (u.rx.tail = incN s.cfg.nRx s.rx.tail ∧ s.stands s.stepping releasing = true)) := by
  cases h with
  | publish hpub => exact ⟨.inr ⟨rfl, hpub⟩, rfl, rfl, .inl rfl⟩
  | release hrel => exact ⟨.inl rfl, rfl, rfl, .inr ⟨rfl, hrel⟩⟩
  | store v => exact ⟨.inl rfl, rfl, rfl, .inl rfl⟩
  | none | enter | exit | kick | setCtrl | filter | clearCancel => simp

/-- A synchroniser writes a view and no pointer (41_sync.md R158). -/
theorem State.synStep_pointers (s : State) (b : RingId) (p : PtrSel) (k : Nat) (c : RingId) :
    ((s.synStep b p k).ring c).head = (s.ring c).head ∧ ((s.synStep b p k).ring c).tail = (s.ring c).tail ∧
    ((s.synStep b p k).ring c).storage = (s.ring c).storage := by
  cases b <;> cases c <;> cases p <;> exact ⟨rfl, rfl, rfl⟩

/-- Settles O57: each pointer by the one effect that writes it, a publish, a send, a reception or a release. -/
theorem whoMovesThePointers : Obligations.WhoMovesThePointers := by
  intro s t h
  rcases step_effect h with hst | ⟨e, hev, u, hu, hut⟩
  · rw [hst.rx, hst.tx]
    exact ⟨.inl rfl, .inl rfl, .inl rfl, .inl rfl⟩
  rw [hut.rx, hut.tx]
  cases hu with
  | none | stop | quirk => simp
  | micro hm =>
    obtain ⟨htxHead, htxTail, hrxHead, hrxTail⟩ := hm.pointers
    exact ⟨htxHead.imp_right fun ⟨hinc, hp⟩ => ⟨hinc, hev, hp⟩, .inl htxTail, .inl hrxHead,
      hrxTail.imp_right fun ⟨hinc, hp⟩ => ⟨hinc, hev, hp⟩⟩
  | receive v => exact ⟨.inl rfl, .inl rfl, .inr ⟨rfl, v, hev⟩, .inl rfl⟩
  | send => exact ⟨.inl rfl, .inr ⟨rfl, hev⟩, .inl rfl, .inl rfl⟩
  | syn b p k =>
    obtain ⟨htxHead, htxTail, -⟩ := s.popScript.synStep_pointers b p k .tx
    obtain ⟨hrxHead, hrxTail, -⟩ := s.popScript.synStep_pointers b p k .rx
    exact ⟨.inl htxHead, .inl htxTail, .inl hrxHead, .inl hrxTail⟩

/-! ### Slots -/

/-- Only the capacity and the cell say what a slot reads as. -/
theorem State.memRead_congr_cell {s t : State} {b : RingId} {a : Nat} (hcfg : t.cfg = s.cfg)
    (hcell : Memory.read (t.ring b).storage a = Memory.read (s.ring b).storage a) : t.memRead b a = s.memRead b a := by
  unfold State.memRead State.cap
  rw [hcfg, hcell]

theorem State.memRead_congr {s t : State} {b : RingId} (hcfg : t.cfg = s.cfg)
    (hstore : (t.ring b).storage = (s.ring b).storage) (a : Nat) : t.memRead b a = s.memRead b a :=
  State.memRead_congr_cell hcfg (by rw [hstore])

theorem State.stored_memRead_same {s : State} {b : RingId} (v : Byte) (hlt : (s.ring b).head < s.cap b) :
    (s.stored b v).memRead b (s.ring b).head = .ok v := by
  rw [State.memRead_ok]
  simp only [State.stored, State.setRing_ring, Memory.read_write_same, and_true]
  simpa [State.cap] using hlt

/-- PSTO changes the slot at `head` and no other. -/
theorem State.stored_memRead_other (s : State) {b c : RingId} (v : Byte) {a : Nat}
    (h : ¬(c = b ∧ a = (s.ring b).head)) : (s.stored b v).memRead c a = s.memRead c a := by
  by_cases hc : c = b
  · subst hc
    have ha : a ≠ (s.ring c).head := fun ha => h ⟨rfl, ha⟩
    exact State.memRead_congr_cell (by simp [State.stored])
      (by rw [State.stored, State.setRing_ring, Memory.read_write_other _ v ha])
  · exact State.memRead_congr (by simp [State.stored]) (by rw [State.stored, State.setRing_ring_of_ne _ _ hc]) a

theorem State.ppub_memRead (s : State) (b c : RingId) (a : Nat) : (s.ppub b).memRead c a = s.memRead c a :=
  State.memRead_congr (by simp) (by cases b <;> cases c <;> rfl) a

theorem State.crel_memRead (s : State) (b c : RingId) (a : Nat) : (s.crel b).memRead c a = s.memRead c a :=
  State.memRead_congr (by simp) (by cases b <;> cases c <;> rfl) a

/-- A micro-step changes what a slot reads as only by PSTO. -/
theorem MicroEffect.slots {s u : State} (h : MicroEffect s u) (b : RingId) (a : Nat) :
    u.memRead b a = s.memRead b a ∨
    ∃ v, u = s.stored .tx v ∧ s.tx.head < s.cfg.nTx ∧
      ((s.running s.stepping = some (.txpush v) ∧ s.cur.upc = 1) ∨
        ((∃ d, s.running s.stepping = some (.wr d)) ∧ s.cur.upc = 4 ∧ v = s.cur.c)) := by
  cases h with
  | store v hlt _ hwho => exact .inr ⟨v, rfl, hlt, hwho⟩
  | publish => exact .inl (s.ppub_memRead _ _ _)
  | release => exact .inl (s.crel_memRead _ _ _)
  | none | enter | exit | kick | setCtrl | filter | clearCancel =>
    exact .inl (State.memRead_congr (by simp) (by cases b <;> simp [State.ring]) a)

/-- Settles O58: only PSTO changes a slot, in `RX` as part of a reception and in `TX` as a micro-step of its own. -/
theorem whoWritesASlot : Obligations.WhoWritesASlot := by
  intro s t b a h hne
  rcases step_effect h with hst | ⟨e, hev, u, hu, hut⟩
  · exact absurd (State.memRead_congr hst.cfg (by cases b <;> simp [State.ring, hst.rx, hst.tx]) a) hne
  have hu' : t.memRead b a = u.memRead b a :=
    State.memRead_congr hut.cfg (by cases b <;> simp [State.ring, hut.rx, hut.tx]) a
  rw [hu', ← s.popScript_memRead b a] at hne
  rw [hu']
  cases hu with
  | none => exact absurd rfl hne
  | stop | quirk => exact absurd (State.memRead_congr (by simp) (by cases b <;> simp [State.ring]) a) hne
  | send => exact absurd (State.crel_memRead _ _ _ _) hne
  | syn c p k =>
    obtain ⟨-, -, hstore⟩ := s.popScript.synStep_pointers c p k b
    exact absurd (State.memRead_congr (by simp) hstore a) hne
  | receive v hroom hlt =>
    rw [State.ppub_memRead] at hne ⊢
    obtain ⟨rfl, rfl⟩ : b = .rx ∧ a = s.rx.head := by
      by_contra hc
      exact hne (State.stored_memRead_other _ v hc)
    exact ⟨rfl, v, hev, State.stored_memRead_same v hlt⟩
  | micro hm =>
    rcases hm.slots b a with heq | ⟨v, rfl, hlt, hwho⟩
    · exact absurd heq hne
    obtain ⟨rfl, rfl⟩ : b = .tx ∧ a = s.tx.head := by
      by_contra hc
      exact hne (State.stored_memRead_other _ v hc)
    have hread : (s.popScript.stored .tx v).memRead .tx s.tx.head = .ok v := State.stored_memRead_same v hlt
    refine ⟨rfl, hev, ?_⟩
    rcases hwho with ⟨hrun, hk⟩ | ⟨hrun, hk, rfl⟩
    · exact .inl ⟨v, hrun, hk, hread⟩
    · exact .inr ⟨hrun, hk, hread⟩

/-! ### The flags of the filter -/

/-- The filter raises `CANCEL_PEND` only with one cancel event, the flag up before and down after (43_filter.md R198). -/
theorem State.filter_cancel (s : State) (c : Byte) :
    ((s.filter c).2.cancelCount = s.cancelCount ∧ (s.filter c).2.cancelPend = s.cancelPend) ∨
    ((s.filter c).2.cancelCount = s.cancelCount + 1 ∧ (s.filter c).2.cancelPend = true ∧ s.escf = true ∧
      (s.filter c).2.escf = false) := by
  rcases s.filter_cases c with ⟨hflag, -, h⟩ | ⟨-, -, h⟩ | ⟨-, -, h⟩ | ⟨-, -, h⟩ <;> rw [h]
  · exact .inr ⟨rfl, rfl, hflag, rfl⟩
  · exact .inl ⟨rfl, rfl⟩
  · exact .inl ⟨rfl, rfl⟩
  · exact .inl ⟨rfl, rfl⟩

/-- A micro-step leaves the three flags, clears `CANCEL_PEND` by CACK, or is a filter step. -/
theorem MicroEffect.flags {s u : State} (h : MicroEffect s u) :
    (u.escf = s.escf ∧ u.cancelCount = s.cancelCount ∧
      (u.cancelPend = s.cancelPend ∨ (u.cancelPend = false ∧ s.running s.stepping = some .cack))) ∨
    (s.stands s.stepping filtering = true ∧ ∃ c, u = (s.filter c).2) := by
  cases h with
  | filter c hf => exact .inr ⟨hf, c, rfl⟩
  | clearCancel hrun => exact .inl ⟨rfl, rfl, .inr ⟨rfl, hrun⟩⟩
  | none | enter | exit | kick | setCtrl | store | publish | release => simp [State.stored]

/-- No agent writes a flag of the filter (43_filter.md R203). -/
theorem StepEffect.flags {s u : State} {e : Event} (h : StepEffect s e u) :
    (u.escf = s.escf ∧ u.cancelCount = s.cancelCount ∧ u.cancelPend = s.cancelPend) ∨
    (e = .micro s.stepping ∧ MicroEffect s u) := by
  cases h with
  | micro hm => exact .inr ⟨rfl, hm⟩
  | none | receive | stop | send | syn | quirk => simp [State.stored]

/-- Settles O56: apart from CACK, which clears `CANCEL_PEND`, only a filter step writes a flag, and it raises
`CANCEL_PEND` with one cancel event or leaves it. -/
theorem whoWritesTheFilterFlags : Obligations.WhoWritesTheFilterFlags := by
  intro s t h
  have noFilter (hescf : t.escf = s.escf) (hcount : t.cancelCount = s.cancelCount)
      (hpend : t.cancelPend = s.cancelPend ∨ (t.cancelPend = false ∧
        s.nextEvent = some (.micro s.stepping) ∧ s.running s.stepping = some .cack)) :
      (t.escf = s.escf ∨ (s.nextEvent = some (.micro s.stepping) ∧ s.stands s.stepping filtering = true)) ∧
      (t.cancelCount = s.cancelCount ∨ (t.cancelCount = s.cancelCount + 1 ∧ t.cancelPend = true ∧ s.escf = true ∧
        t.escf = false ∧ s.nextEvent = some (.micro s.stepping) ∧ s.stands s.stepping filtering = true)) ∧
      (s.cancelPend = false → t.cancelPend = true → t.cancelCount = s.cancelCount + 1) ∧
      (s.cancelPend = true → t.cancelPend = false →
        s.nextEvent = some (.micro s.stepping) ∧ s.running s.stepping = some .cack) := by
    refine ⟨.inl hescf, .inl hcount, fun hlow hhigh => ?_, fun hhigh hlow => ?_⟩
    · rcases hpend with hp | ⟨hp, -⟩ <;> simp_all
    · rcases hpend with hp | ⟨-, hcack⟩
      · simp_all
      · exact hcack
  rcases step_effect h with hst | ⟨e, hev, u, hu, hut⟩
  · exact noFilter hst.escf hst.cancelCount (.inl hst.cancelPend)
  rcases hu.flags with ⟨hescf, hcount, hpend⟩ | ⟨rfl, hm⟩
  · exact noFilter (hut.escf.trans hescf) (hut.cancelCount.trans hcount) (.inl (hut.cancelPend.trans hpend))
  rcases hm.flags with ⟨hescf, hcount, hpend⟩ | ⟨hf, c, rfl⟩
  · exact noFilter (hut.escf.trans hescf) (hut.cancelCount.trans hcount)
      (hpend.imp hut.cancelPend.trans fun ⟨hp, hcack⟩ => ⟨hut.cancelPend.trans hp, hev, hcack⟩)
  rw [hut.escf, hut.cancelCount, hut.cancelPend]
  have hat : s.nextEvent = some (.micro s.stepping) ∧ s.stands s.stepping filtering = true := ⟨hev, hf⟩
  rcases s.popScript.filter_cancel c with ⟨hcount, hpend⟩ | ⟨hcount, hpend, hup, hdown⟩
  · refine ⟨.inr hat, .inl hcount, fun hlow hhigh => ?_, fun hhigh hlow => ?_⟩
    · exact Bool.noConfusion ((hhigh.symm.trans hpend).trans hlow)
    · exact Bool.noConfusion ((hlow.symm.trans hpend).trans hhigh)
  · exact ⟨.inr hat, .inr ⟨hcount, hpend, hup, hdown, hat⟩, fun _ _ => hcount,
      fun _ hlow => Bool.noConfusion (hlow.symm.trans hpend)⟩

/-! ### `CTRL` -/

/-- ENTER and EXIT write `IMASK` alone, and on port F alone (42_channel.md R172). -/
theorem State.bracket_ctrl {s u : State} (h : u = s.enter ∨ u = s.exit) :
    u.ctrl.rxie = s.ctrl.rxie ∧ u.ctrl.txie = s.ctrl.txie ∧ u.ctrl.crlf = s.ctrl.crlf ∧
    (u.ctrl.imask = s.ctrl.imask ∨ s.stepping = .f) := by
  cases hx : s.stepping <;> rcases h with rfl | rfl <;> simp [State.enter, State.exit, hx]

/-- Settles O59: each bit by the effects that write `CTRL`, CTLS and CTLC, the bracket, the kick, the stop of `TXC` and the
quirk; the agents that re-assert an enable find it set. -/
theorem whoWritesCtrl : Obligations.WhoWritesCtrl := by
  intro s t h atCtl
  rcases step_effect h with hst | ⟨e, hev, u, hu, hut⟩
  · rw [hst.ctrl]
    exact ⟨.inl rfl, .inl rfl, .inl rfl, .inl rfl⟩
  rw [hut.ctrl]
  have atBracket {u : State} (hu : u = s.popScript.enter ∨ u = s.popScript.exit)
      (hev : s.nextEvent = some (.micro s.stepping))
      (hrun : s.running s.stepping = some .rd ∨ ∃ d, s.running s.stepping = some (.wr d)) :
      u.ctrl.rxie = s.ctrl.rxie ∧ u.ctrl.txie = s.ctrl.txie ∧ u.ctrl.crlf = s.ctrl.crlf ∧
      (u.ctrl.imask = s.ctrl.imask ∨ (s.nextEvent = some (.micro .f) ∧ s.insvc = .none ∧
        (s.running .f = some .rd ∨ ∃ d, s.running .f = some (.wr d)))) := by
    obtain ⟨hrxie, htxie, hcrlf, himask⟩ := State.bracket_ctrl hu
    refine ⟨hrxie, htxie, hcrlf, himask.imp_right fun hf => ?_⟩
    have hf' : s.stepping = .f := hf
    rw [hf'] at hev hrun
    exact ⟨hev, State.stepping_eq_f.mp hf', hrun⟩
  cases hu with
  | none | receive | send | syn => simp [State.stored]
  | stop hauto => exact ⟨.inl rfl, .inr (.inr (.inr (.inl ⟨hev, rfl, hauto⟩))), .inl rfl, .inl rfl⟩
  | quirk x =>
    cases x
    · exact ⟨.inr (.inr ⟨hev, rfl⟩), .inl rfl, .inl rfl, .inl rfl⟩
    · exact ⟨.inl rfl, .inr (.inr (.inl ⟨hev, rfl⟩)), .inl rfl, .inl rfl⟩
  | micro hm =>
    cases hm with
    | none | filter | clearCancel | store | publish | release => simp [State.stored]
    | setCtrl c hctl =>
      have hat : atCtl := ⟨hev, hctl⟩
      exact ⟨.inr (.inl hat), .inr (.inl hat), .inr hat, .inr (.inl hat)⟩
    | kick hrun hk => exact ⟨.inl rfl, .inr (.inr (.inr (.inr ⟨hev, hrun, hk⟩))), .inl rfl, .inl rfl⟩
    | enter hrun =>
      obtain ⟨hrxie, htxie, hcrlf, himask⟩ := atBracket (.inl rfl) hev hrun
      exact ⟨.inl hrxie, .inl htxie, .inl hcrlf, himask.imp_right .inr⟩
    | exit hrun =>
      obtain ⟨hrxie, htxie, hcrlf, himask⟩ := atBracket (.inr rfl) hev hrun
      exact ⟨.inl hrxie, .inl htxie, .inl hcrlf, himask.imp_right .inr⟩

/-! ### The mask -/

/-- Settles O16: with the mask up and no session open, the three steps that begin interrupt-context activity are not
enabled, and every other step leaves what they would write. -/
theorem theMaskHoldsInterruptContext : Obligations.TheMaskHoldsInterruptContext := by
  intro s t hmask hidle h
  have ha : t.a = s.a := by
    obtain ⟨-, hport⟩ := step_keepsIdlePort h
    rw [State.stepping_eq_f.mpr hidle] at hport
    exact hport
  have hint : s.popScript.interruptible = false := by simp [State.interruptible, hmask]
  rcases step_cases h with ⟨-, rfl⟩ | ⟨e, -, rfl | ⟨he, hp⟩⟩
  · exact ⟨hidle, rfl, rfl, rfl, rfl, rfl⟩
  · exact ⟨hidle, rfl, rfl, rfl, rfl, rfl⟩
  cases e with
  | micro x =>
    have hf := MicroFrame.runMicro hp
    exact ⟨hf.insvc.trans hidle, hf.rxTrace, hf.txTrace, hf.rxHead, hf.txTail, ha⟩
  | aEnter | rxp | txc => simp [State.enabled, hint] at he
  | aLeave => simp [State.enabled, hidle] at he
  | accept x w => cases hp; exact ⟨by simpa using hidle, by simp, by simp, by simp, by simp, ha⟩
  | quirk x => cases hp; exact ⟨by simpa using hidle, by simp, by simp, by simp, by simp, ha⟩
  | syn b p k =>
    cases hp
    obtain ⟨-, htail, -⟩ := s.popScript.synStep_pointers b p k .tx
    obtain ⟨hhead, -⟩ := s.popScript.synStep_pointers b p k .rx
    exact ⟨by simpa using hidle, by simp, by simp, hhead, htail, ha⟩

/-! ### The next choice taken -/

theorem step_of_script {s : State} {e : Event} {rest : List Event} (hwf : s.cfg.wf = true) (hs : s.script = e :: rest) :
    step s = ({ s with script := rest }).take e := by
  simp [step, hwf, State.advance, State.nextEvent, State.popScript, hs]

/-- Settles O6: the micro-step of a busy port that may step is enabled, and it runs what the latch decodes to. -/
theorem stepRunsTheDecodedCommand : Obligations.StepRunsTheDecodedCommand := by
  intro s i rest hwf hs hbusy hdec
  have hen : ({ s with script := rest }).enabled (.micro s.stepping) = true := by
    have hb : (s.port s.stepping).busy = true := hbusy
    have hstep : ({ s with script := rest }).stepping = s.stepping := rfl
    have hport : ({ s with script := rest }).port s.stepping = s.port s.stepping := State.port_congr rfl rfl _
    simp [State.enabled, hstep, hport, hb]
  have hrun : ({ s with script := rest }).runMicro = exec i { s with script := rest } := by
    have hdec' : decode ({ s with script := rest }).cur.cmd = .ok i := hdec
    simp only [State.runMicro, hdec']
  rw [step_of_script hwf hs, State.take, if_pos hen]
  exact hrun

/-- Settles O8: a port accepts exactly when it is ready, and an acceptance is one port update. -/
theorem acceptanceWritesThreeLatches : Obligations.AcceptanceWritesThreeLatches := by
  intro s x w rest hwf hs
  have hen : ({ s with script := rest }).enabled (.accept x w) = true ↔ s.stepping = x ∧ (s.port x).busy = false := by
    have hstep : ({ s with script := rest }).stepping = s.stepping := rfl
    have hport : ({ s with script := rest }).port x = s.port x := State.port_congr rfl rfl x
    simp [State.enabled, State.cmdReady, hstep, hport]
  rw [step_of_script hwf hs, State.take]
  by_cases hready : s.stepping = x ∧ (s.port x).busy = false
  · rw [if_pos (hen.mpr hready), if_pos hready]
    have hport : ({ s with script := rest }).port x = s.port x := State.port_congr rfl rfl x
    simp only [State.perform, State.acceptWord, hport]
  · rw [if_neg (mt hen.mp hready), if_neg hready]

end Sys2Proof.Machine
end

section
/-! SUPPORT. The invariant of one ring: what it says of occupancy and of the two checks, and that every operation of a ring
keeps it (10_state.md R43, R49; 41_sync.md R159, R160). -/

namespace Sys2Proof.Machine

/-! ### Distances -/

theorem distN_add_right {n a b k : Nat} (ha : a < n) (hb : b < n) (hk : distN n a b + k < n) :
    distN n a ((b + k) % n) = distN n a b + k := by
  have hi : (b + k) % n < n := Nat.mod_lt _ (by omega)
  rcases add_mod_cases hb (show k < n by omega) with ⟨_, hm⟩ | ⟨_, hm⟩ <;>
    rcases distN_cases ha hb with ⟨_, h1⟩ | ⟨_, h1⟩ <;>
    rcases distN_cases ha hi with ⟨_, h2⟩ | ⟨_, h2⟩ <;> omega

/-- The distance to the slot just before `a` is the largest one. -/
theorem distN_eq_last {n a b : Nat} (ha : a < n) (hb : b < n) : distN n a b + 1 = n ↔ incN n b = a := by
  rcases incN_cases n b with ⟨_, hc⟩ | ⟨_, hc⟩ <;> rcases distN_cases ha hb with ⟨_, h⟩ | ⟨_, h⟩ <;> omega

/-- Distances that together stay within one lap add up. -/
theorem distN_add {n a b c : Nat} (ha : a < n) (hb : b < n) (hc : c < n) (h : distN n a b + distN n b c < n) :
    distN n a c = distN n a b + distN n b c := by
  rcases distN_cases ha hb with ⟨_, h1⟩ | ⟨_, h1⟩ <;> rcases distN_cases hb hc with ⟨_, h2⟩ | ⟨_, h2⟩ <;>
    rcases distN_cases ha hc with ⟨_, h3⟩ | ⟨_, h3⟩ <;> omega

theorem add_distN_mod {n a b : Nat} (ha : a < n) (hb : b < n) : (a + distN n a b) % n = b := by
  rcases add_mod_cases ha (distN_lt (by omega) : distN n a b < n) with ⟨_, hm⟩ | ⟨_, hm⟩ <;>
    rcases distN_cases ha hb with ⟨_, h⟩ | ⟨_, h⟩ <;> omega

theorem Config.two_le_cap {c : Config} (h : c.wf = true) (b : RingId) : 2 ≤ c.cap b := by
  simp only [Config.wf, capOk, Bool.and_eq_true, decide_eq_true_eq] at h
  obtain ⟨⟨⟨⟨hrx, -⟩, ⟨htx, -⟩⟩, -⟩, -⟩ := h
  cases b
  · exact hrx
  · exact htx

/-! ### What the views and the checks depend on -/

theorem State.headView_congr {s t : State} {b : RingId} (hcfg : t.cfg = s.cfg) (hring : t.ring b = s.ring b) :
    t.headView b = s.headView b := by
  rw [State.headView, State.headView, hcfg, hring]

theorem State.tailView_congr {s t : State} {b : RingId} (hcfg : t.cfg = s.cfg) (hring : t.ring b = s.ring b) :
    t.tailView b = s.tailView b := by
  rw [State.tailView, State.tailView, hcfg, hring]

theorem State.fullP_congr {s t : State} {b : RingId} (hcfg : t.cfg = s.cfg) (hring : t.ring b = s.ring b) :
    t.fullP b = s.fullP b := by
  rw [State.fullP, State.fullP, State.tailView_congr hcfg hring, hring, State.cap, State.cap, hcfg]

theorem State.emptyC_congr {s t : State} {b : RingId} (hcfg : t.cfg = s.cfg) (hring : t.ring b = s.ring b) :
    t.emptyC b = s.emptyC b := by
  rw [State.emptyC, State.emptyC, State.headView_congr hcfg hring, hring]

theorem State.fullP_eq_false {s : State} {b : RingId} :
    s.fullP b = false ↔ incN (s.cap b) (s.ring b).head ≠ s.tailView b := by
  simp [State.fullP]

theorem State.emptyC_eq_false {s : State} {b : RingId} : s.emptyC b = false ↔ s.headView b ≠ (s.ring b).tail := by
  simp [State.emptyC]

/-- In `DIRECT` the views are the pointers (41_sync.md R153). -/
theorem State.views_direct {s : State} (h : s.cfg.sync.lagged = false) (b : RingId) :
    s.headView b = (s.ring b).head ∧ s.tailView b = (s.ring b).tail := by
  simp [State.headView, State.tailView, h]

theorem State.views_lagged {s : State} (h : s.cfg.sync.lagged = true) (b : RingId) :
    s.headView b = (s.ring b).headC ∧ s.tailView b = (s.ring b).tailP := by
  simp [State.headView, State.tailView, h]

/-! ### The ring and the views after each operation -/

section
variable (s : State) (b : RingId)

@[simp] theorem State.stored_cap (v : Byte) (c : RingId) : (s.stored b v).cap c = s.cap c := by
  simp [State.cap, State.stored]

@[simp] theorem State.ppub_cap (c : RingId) : (s.ppub b).cap c = s.cap c := by
  simp [State.cap]

@[simp] theorem State.crel_cap (c : RingId) : (s.crel b).cap c = s.cap c := by
  simp [State.cap]

@[simp] theorem State.synStep_cap (p : PtrSel) (k : Nat) (c : RingId) : (s.synStep b p k).cap c = s.cap c := by
  simp [State.cap]

theorem State.stored_ring (v : Byte) :
    (s.stored b v).ring b = { s.ring b with storage := Memory.write (s.ring b).storage (s.ring b).head v } :=
  State.setRing_ring _ _ _

theorem State.ppub_ring : (s.ppub b).ring b = { s.ring b with head := incN (s.cap b) (s.ring b).head } :=
  State.setRing_ring _ _ _

theorem State.crel_ring : (s.crel b).ring b = { s.ring b with tail := incN (s.cap b) (s.ring b).tail } :=
  State.setRing_ring _ _ _

theorem State.synStep_ring (p : PtrSel) (k : Nat) :
    (s.synStep b p k).ring b = (s.ring b).setViewReg p (((s.ring b).viewReg p + k) % s.cap b) :=
  State.setRing_ring _ _ _

@[simp] theorem State.stored_headView (v : Byte) : (s.stored b v).headView b = s.headView b := by
  simp [State.headView, State.stored]

@[simp] theorem State.stored_tailView (v : Byte) : (s.stored b v).tailView b = s.tailView b := by
  simp [State.tailView, State.stored]

theorem State.ppub_headView (h : s.cfg.sync.lagged = true) : (s.ppub b).headView b = s.headView b := by
  simp [State.headView, State.ppub, h]

theorem State.ppub_tailView : (s.ppub b).tailView b = s.tailView b := by
  simp [State.tailView, State.ppub]

theorem State.crel_headView : (s.crel b).headView b = s.headView b := by
  simp [State.headView, State.crel]

theorem State.crel_tailView (h : s.cfg.sync.lagged = true) : (s.crel b).tailView b = s.tailView b := by
  simp [State.tailView, State.crel, h]

end

/-! ### What the invariant says -/

namespace RingInv

section
variable {s : State} {b : RingId}

theorem headView_lt (h : RingInv s b) : s.headView b < s.cap b := by
  unfold State.headView
  split
  · exact h.headC_lt
  · exact h.head_lt

theorem tailView_lt (h : RingInv s b) : s.tailView b < s.cap b := by
  unfold State.tailView
  split
  · exact h.tailP_lt
  · exact h.tail_lt

theorem cap_pos (h : RingInv s b) : 0 < s.cap b :=
  Nat.zero_lt_of_lt h.head_lt

/-- What the consumer sees and what it does not see yet make up what the ring holds. -/
theorem occ_eq (h : RingInv s b) :
    s.occ b = distN (s.cap b) (s.ring b).tail (s.headView b) + distN (s.cap b) (s.headView b) (s.ring b).head := by
  have hlap : distN (s.cap b) (s.tailView b) (s.ring b).head < s.cap b := distN_lt h.cap_pos
  have hord := h.ordered
  exact distN_add h.tail_lt h.headView_lt h.head_lt (by omega)

/-- What the ring holds and the releases the producer does not see yet make up what the producer takes it to hold. -/
theorem seen_eq (h : RingInv s b) :
    distN (s.cap b) (s.tailView b) (s.ring b).head = distN (s.cap b) (s.tailView b) (s.ring b).tail + s.occ b := by
  have hord := h.ordered
  rw [h.occ_eq]
  omega

/-- A byte the consumer sees is there (41_sync.md R160). -/
theorem occ_pos (h : RingInv s b) (hdata : s.emptyC b = false) : 0 < s.occ b := by
  have hne := mt (distN_eq_zero h.tail_lt h.headView_lt).mp (State.emptyC_eq_false.mp hdata).symm
  rw [h.occ_eq]
  omega

theorem tail_ne_head (h : RingInv s b) (hdata : s.emptyC b = false) : (s.ring b).tail ≠ (s.ring b).head :=
  mt (distN_eq_zero h.tail_lt h.head_lt).mpr (h.occ_pos hdata).ne'

/-- The slot at `tail` has been written if the consumer sees a byte. -/
theorem read_tail (h : RingInv s b) (hdata : s.emptyC b = false) :
    (Memory.read (s.ring b).storage (s.ring b).tail).isSome = true := by
  have hw := h.written 0 (h.occ_pos hdata)
  rwa [Nat.add_zero, Nat.mod_eq_of_lt h.tail_lt] at hw

/-- Room the producer sees is there (41_sync.md R160). -/
theorem seen_lt (h : RingInv s b) (hroom : s.fullP b = false) :
    distN (s.cap b) (s.tailView b) (s.ring b).head + 1 < s.cap b := by
  have hne := mt (distN_eq_last h.tailView_lt h.head_lt).mp (State.fullP_eq_false.mp hroom)
  have hlap : distN (s.cap b) (s.tailView b) (s.ring b).head < s.cap b := distN_lt h.cap_pos
  omega

theorem incN_head_ne (h : RingInv s b) (hroom : s.fullP b = false) {p : Nat} (hp : p < s.cap b)
    (hle : distN (s.cap b) p (s.ring b).head ≤ distN (s.cap b) (s.tailView b) (s.ring b).head) :
    incN (s.cap b) (s.ring b).head ≠ p := fun hc => by
  have hlast := (distN_eq_last hp h.head_lt).mpr hc
  have hlt := h.seen_lt hroom
  omega

/-! ### What keeps it -/

theorem congr {t : State} (h : RingInv s b) (hcfg : t.cfg = s.cfg) (hring : t.ring b = s.ring b) : RingInv t b := by
  have hcap : t.cap b = s.cap b := by rw [State.cap, State.cap, hcfg]
  have hocc : t.occ b = s.occ b := by rw [State.occ, State.occ, hcap, hring]
  obtain ⟨h1, h2, h3, h4, h5, h6, h7, h8⟩ := h
  rw [← State.headView_congr hcfg hring, ← State.tailView_congr hcfg hring] at h7
  rw [← hocc] at h8
  rw [← hcap, ← hring] at h1 h2 h3 h4 h6 h7 h8
  rw [← hring] at h5
  exact ⟨h1, h2, h3, h4, h5, h6, h7, h8⟩

end

/-- The invariant of a ring in the form an operation meets it, with the ring and the views written out. -/
theorem of_ring {t : State} {b : RingId} {n hv tv : Nat} {r : Ring} (hcap : t.cap b = n) (hring : t.ring b = r)
    (hhv : t.headView b = hv) (htv : t.tailView b = tv) (h1 : r.head < n) (h2 : r.tail < n) (h3 : r.headC < n)
    (h4 : r.tailP < n) (h5 : Memory.wf r.storage) (h6 : ∀ c ∈ r.storage, c.1 < n)
    (h7 : distN n tv r.tail + distN n r.tail hv + distN n hv r.head = distN n tv r.head)
    (h8 : ∀ k < distN n r.tail r.head, (Memory.read r.storage ((r.tail + k) % n)).isSome = true) : RingInv t b := by
  subst hcap hring hhv htv
  exact ⟨h1, h2, h3, h4, h5, h6, h7, h8⟩

section
variable {s : State} {b : RingId}

/-- PSTO keeps the invariant: no view moves and no slot loses its value. -/
theorem stored (h : RingInv s b) (v : Byte) : RingInv (s.stored b v) b := by
  refine of_ring (n := s.cap b) (by simp) (s.stored_ring b v) (by simp) (by simp) h.head_lt h.tail_lt h.headC_lt h.tailP_lt
    (Memory.write_wf _ _ h.storage_wf) (Memory.write_lt _ h.head_lt h.storage_lt) h.ordered fun k hk => ?_
  by_cases hi : ((s.ring b).tail + k) % s.cap b = (s.ring b).head
  · simp [hi]
  · simpa [Memory.read_write_other _ v hi] using h.written k hk

/-- PPUB keeps the invariant where the producer sees room and has stored its byte. -/
theorem ppub (h : RingInv s b) (hroom : s.fullP b = false)
    (hbyte : (Memory.read (s.ring b).storage (s.ring b).head).isSome = true) : RingInv (s.ppub b) b := by
  have hseen := h.seen_eq
  have hord := h.ordered
  have hinc : incN (s.cap b) (s.ring b).head < s.cap b := incN_lt h.cap_pos
  have hocc : distN (s.cap b) (s.ring b).tail (incN (s.cap b) (s.ring b).head) = s.occ b + 1 :=
    distN_inc_right h.tail_lt h.head_lt (h.incN_head_ne hroom h.tail_lt (by rw [hseen]; exact Nat.le_add_left _ _))
  refine of_ring (n := s.cap b) (by simp) (s.ppub_ring b) rfl rfl hinc h.tail_lt h.headC_lt h.tailP_lt h.storage_wf
    h.storage_lt ?_ fun k hk => ?_
  · cases hl : s.cfg.sync.lagged with
    | false =>
      obtain ⟨hhv, htv⟩ := State.views_direct (s := s.ppub b) (by simpa using hl) b
      rw [hhv, htv, s.ppub_ring b, distN_self hinc, distN_self h.tail_lt]
      omega
    | true =>
      have hnear : distN (s.cap b) (s.headView b) (incN (s.cap b) (s.ring b).head) =
          distN (s.cap b) (s.headView b) (s.ring b).head + 1 :=
        distN_inc_right h.headView_lt h.head_lt (h.incN_head_ne hroom h.headView_lt (by omega))
      have hfar : distN (s.cap b) (s.tailView b) (incN (s.cap b) (s.ring b).head) =
          distN (s.cap b) (s.tailView b) (s.ring b).head + 1 :=
        distN_inc_right h.tailView_lt h.head_lt (h.incN_head_ne hroom h.tailView_lt le_rfl)
      rw [s.ppub_headView b hl, s.ppub_tailView, hnear, hfar]
      dsimp only
      omega
  · by_cases hlast : k = s.occ b
    · subst hlast
      rwa [State.occ, add_distN_mod h.tail_lt h.head_lt]
    · exact h.written k (by simp only [hocc] at hk; omega)

/-- CREL keeps the invariant where the consumer sees a byte. -/
theorem crel (h : RingInv s b) (hdata : s.emptyC b = false) : RingInv (s.crel b) b := by
  have hseen := h.seen_eq
  have hord := h.ordered
  have hpos := h.occ_pos hdata
  have hlap : distN (s.cap b) (s.tailView b) (s.ring b).head < s.cap b := distN_lt h.cap_pos
  have hinc : incN (s.cap b) (s.ring b).tail < s.cap b := incN_lt h.cap_pos
  have hocc : distN (s.cap b) (incN (s.cap b) (s.ring b).tail) (s.ring b).head + 1 = s.occ b :=
    distN_inc_left h.tail_lt h.head_lt (h.tail_ne_head hdata)
  refine of_ring (n := s.cap b) (by simp) (s.crel_ring b) rfl rfl h.head_lt hinc h.headC_lt h.tailP_lt h.storage_wf
    h.storage_lt ?_ fun k hk => ?_
  · cases hl : s.cfg.sync.lagged with
    | false =>
      obtain ⟨hhv, htv⟩ := State.views_direct (s := s.crel b) (by simpa using hl) b
      rw [hhv, htv, s.crel_ring b, distN_self hinc, distN_self h.head_lt]
      omega
    | true =>
      have hnear : distN (s.cap b) (incN (s.cap b) (s.ring b).tail) (s.headView b) + 1 =
          distN (s.cap b) (s.ring b).tail (s.headView b) :=
        distN_inc_left h.tail_lt h.headView_lt (State.emptyC_eq_false.mp hdata).symm
      have hroom : incN (s.cap b) (s.ring b).tail ≠ s.tailView b := fun hc => by
        have hlast := (distN_eq_last h.tailView_lt h.tail_lt).mpr hc
        omega
      have hfar := distN_inc_right h.tailView_lt h.tail_lt hroom
      rw [s.crel_headView, s.crel_tailView b hl, hfar]
      dsimp only
      omega
  · have hnext : (incN (s.cap b) (s.ring b).tail + k) % s.cap b = ((s.ring b).tail + (k + 1)) % s.cap b := by
      rw [incN_eq_mod h.tail_lt, Nat.mod_add_mod, Nat.add_assoc, Nat.add_comm 1 k]
    simp only [hnext]
    exact h.written (k + 1) (by simp only at hk; omega)

/-- A synchroniser moves a view toward its pointer, not past it (41_sync.md R158, R159). -/
theorem synStep (h : RingInv s b) (hl : s.cfg.sync.lagged = true) {p : PtrSel} {k : Nat} (hle : k ≤ s.lag b p) :
    RingInv (s.synStep b p k) b := by
  obtain ⟨hhv, htv⟩ := State.views_lagged hl b
  obtain ⟨hhv', htv'⟩ := State.views_lagged (s := s.synStep b p k) (by simpa using hl) b
  have hseen := h.seen_eq
  have hord := h.ordered
  have hlap : distN (s.cap b) (s.tailView b) (s.ring b).head < s.cap b := distN_lt h.cap_pos
  rw [hhv, htv] at hord
  rw [htv] at hseen hlap
  rw [s.synStep_ring] at hhv' htv'
  cases p with
  | head =>
    have hnear := distN_add_left h.headC_lt h.head_lt hle
    have hfar : distN (s.cap b) (s.ring b).tail (((s.ring b).headC + k) % s.cap b) =
        distN (s.cap b) (s.ring b).tail (s.ring b).headC + k := distN_add_right h.tail_lt h.headC_lt (by omega)
    refine of_ring (n := s.cap b) (by simp) (s.synStep_ring b _ k) hhv' htv' h.head_lt h.tail_lt
      (Nat.mod_lt _ h.cap_pos) h.tailP_lt h.storage_wf h.storage_lt ?_ h.written
    simp only [Ring.setViewReg, Ring.viewReg] at hnear hfar ⊢
    omega
  | tail =>
    have hle' : k ≤ distN (s.cap b) (s.ring b).tailP (s.ring b).tail := hle
    have hnear := distN_add_left h.tailP_lt h.tail_lt hle
    have hfar := distN_add_left h.tailP_lt h.head_lt (show k ≤ _ by rw [hseen]; omega)
    refine of_ring (n := s.cap b) (by simp) (s.synStep_ring b _ k) hhv' htv' h.head_lt h.tail_lt h.headC_lt
      (Nat.mod_lt _ h.cap_pos) h.storage_wf h.storage_lt ?_ h.written
    simp only [Ring.setViewReg, Ring.viewReg] at hnear hfar ⊢
    omega

/-! ### The check of the other end -/

/-- A publish takes no byte from the consumer. -/
theorem ppub_emptyC (h : RingInv s b) (hroom : s.fullP b = false) (hdata : s.emptyC b = false) :
    (s.ppub b).emptyC b = false := by
  rw [State.emptyC_eq_false] at hdata ⊢
  rw [s.ppub_ring b]
  cases hl : s.cfg.sync.lagged with
  | false =>
    obtain ⟨hhv, -⟩ := State.views_direct (s := s.ppub b) (by simpa using hl) b
    rw [hhv, s.ppub_ring b]
    exact h.incN_head_ne hroom h.tail_lt (by rw [h.seen_eq]; exact Nat.le_add_left _ _)
  | true =>
    rw [s.ppub_headView b hl]
    exact hdata

/-- A release takes no room from the producer. -/
theorem crel_fullP (h : RingInv s b) (hdata : s.emptyC b = false) (hroom : s.fullP b = false) :
    (s.crel b).fullP b = false := by
  rw [State.fullP_eq_false] at hroom ⊢
  rw [s.crel_ring b, State.crel_cap]
  cases hl : s.cfg.sync.lagged with
  | false =>
    obtain ⟨-, htv⟩ := State.views_direct (s := s.crel b) (by simpa using hl) b
    rw [htv, s.crel_ring b]
    intro hc
    have hlast := (distN_eq_last (incN_lt h.cap_pos) h.head_lt).mpr hc
    have hocc := distN_inc_left h.tail_lt h.head_lt (h.tail_ne_head hdata)
    have hlap : distN (s.cap b) (s.ring b).tail (s.ring b).head < s.cap b := distN_lt h.cap_pos
    omega
  | true =>
    rw [s.crel_tailView b hl]
    exact hroom

/-- A synchroniser takes no byte from the consumer: its view of `head` is not behind where it was. -/
theorem synStep_emptyC (h : RingInv s b) (hl : s.cfg.sync.lagged = true) {p : PtrSel} {k : Nat} (hle : k ≤ s.lag b p)
    (hdata : s.emptyC b = false) : (s.synStep b p k).emptyC b = false := by
  obtain ⟨hhv, -⟩ := State.views_lagged hl b
  obtain ⟨hhv', -⟩ := State.views_lagged (s := s.synStep b p k) (by simpa using hl) b
  rw [State.emptyC_eq_false, hhv] at hdata
  rw [State.emptyC_eq_false, hhv', s.synStep_ring]
  cases p with
  | tail => exact hdata
  | head =>
    have hord := h.ordered
    have hlap : distN (s.cap b) (s.tailView b) (s.ring b).head < s.cap b := distN_lt h.cap_pos
    have hk : k ≤ distN (s.cap b) (s.ring b).headC (s.ring b).head := hle
    rw [hhv] at hord
    have hfar : distN (s.cap b) (s.ring b).tail (((s.ring b).headC + k) % s.cap b) =
        distN (s.cap b) (s.ring b).tail (s.ring b).headC + k := distN_add_right h.tail_lt h.headC_lt (by omega)
    simp only [Ring.setViewReg, Ring.viewReg]
    intro hc
    have hzero := (distN_eq_zero h.tail_lt (Nat.mod_lt _ h.cap_pos)).mpr hc.symm
    exact hdata ((distN_eq_zero h.tail_lt h.headC_lt).mp (by omega)).symm

/-- A synchroniser takes no room from the producer: its view of `tail` is not behind where it was. -/
theorem synStep_fullP (h : RingInv s b) (hl : s.cfg.sync.lagged = true) {p : PtrSel} {k : Nat} (hle : k ≤ s.lag b p)
    (hroom : s.fullP b = false) : (s.synStep b p k).fullP b = false := by
  obtain ⟨-, htv⟩ := State.views_lagged hl b
  obtain ⟨-, htv'⟩ := State.views_lagged (s := s.synStep b p k) (by simpa using hl) b
  rw [State.fullP_eq_false, htv', s.synStep_ring, State.synStep_cap]
  cases p with
  | head =>
    rw [State.fullP_eq_false, htv] at hroom
    exact hroom
  | tail =>
    have hseen := h.seen_eq
    have hk : k ≤ distN (s.cap b) (s.ring b).tailP (s.ring b).tail := hle
    rw [htv] at hseen
    have hfar := distN_add_left h.tailP_lt h.head_lt (show k ≤ _ by rw [hseen]; omega)
    simp only [Ring.setViewReg, Ring.viewReg]
    exact h.incN_head_ne hroom (Nat.mod_lt _ h.cap_pos) (by rw [htv]; omega)

end

end RingInv

end Sys2Proof.Machine
end

section
/-! SUPPORT. The flow of control of a micro-program: where a micro-step that does not answer leaves its port, and what holds
there (40_ring.md R135, R137; 42_channel.md R171, R172, R174). -/

namespace Sys2Proof.Machine

/-! ### What the latches of the stepping port depend on -/

theorem State.cur_congr {s t : State} (hi : t.insvc = s.insvc) (hf : t.f = s.f) (ha : t.a = s.a) : t.cur = s.cur := by
  rw [State.cur, State.cur, State.stepping_congr hi, State.port_congr hf ha]

@[simp] theorem State.enter_cur (s : State) : s.enter.cur = s.cur := State.cur_congr (by simp) (by simp) (by simp)

@[simp] theorem State.exit_cur (s : State) : s.exit.cur = s.cur := State.cur_congr (by simp) (by simp) (by simp)

@[simp] theorem State.kick_cur (s : State) : s.kick.cur = s.cur := State.cur_congr (by simp) (by simp) (by simp)

@[simp] theorem State.ppub_cur (s : State) (b : RingId) : (s.ppub b).cur = s.cur :=
  State.cur_congr (by simp) (by simp) (by simp)

@[simp] theorem State.crel_cur (s : State) (b : RingId) : (s.crel b).cur = s.cur :=
  State.cur_congr (by simp) (by simp) (by simp)

@[simp] theorem State.stored_cur (s : State) (b : RingId) (v : Byte) : (s.stored b v).cur = s.cur :=
  State.cur_congr (by simp [State.stored]) (by simp [State.stored]) (by simp [State.stored])

@[simp] theorem State.filter_cur (s : State) (c : Byte) : (s.filter c).2.cur = s.cur :=
  State.cur_congr (MicroFrame.filter s c).insvc (by simp) (by simp)

theorem State.xlat_cmd (s : State) (d : Byte) : (s.xlat d).cur.cmd = s.cur.cmd := by
  unfold State.xlat
  split <;> simp

/-- FILT goes on to the push with a literal, else to the end (42_channel.md R174). -/
theorem State.filt_cases (s : State) :
    s.filt = (s.filter s.cur.c).2.goto 2 ∨ s.filt = (s.filter s.cur.c).2.goto 9 := by
  unfold State.filt
  split <;> simp [*]

theorem State.enter_imask {s : State} (h : s.stepping = .f) : s.enter.ctrl.imask = true := by
  simp [State.enter, h]

@[simp] theorem State.stored_fullP (s : State) (b : RingId) (v : Byte) : (s.stored b v).fullP b = s.fullP b := by
  simp [State.fullP, s.stored_ring]

@[simp] theorem State.stored_emptyC (s : State) (b : RingId) (v : Byte) : (s.stored b v).emptyC b = s.emptyC b := by
  simp [State.emptyC, s.stored_ring]

theorem SameShared.fullP {s t : State} (h : SameShared s t) : t.fullP .tx = s.fullP .tx :=
  State.fullP_congr h.cfg h.tx

theorem SameShared.emptyC {s t : State} (h : SameShared s t) : t.emptyC .rx = s.emptyC .rx :=
  State.emptyC_congr h.cfg h.rx

/-! ### The flow -/

theorem pushing_of_publishes {c v : Byte} {i : Instr} {k : Nat} (h : publishes c i k = some v) : pushing i k = true := by
  cases i <;> simp_all [publishes, pushing]

theorem popping_of_releasing {i : Instr} {k : Nat} (h : releasing i k = true) : popping i k = true := by
  cases i <;> simp_all [releasing, popping]

/-- If `k` is inside a bracket of port F, the micro-step from `s` to `t` began it or left the mask as it was. -/
def BracketKept (i : Instr) (s t : State) (k : Nat) : Prop :=
  bracketed i k = true → s.stepping = .f →
    t.ctrl.imask = true ∨ (bracketed i s.cur.upc.toNat = true ∧ t.ctrl.imask = s.ctrl.imask)

/-- Where a micro-step of `i` that does not answer leaves its port, and what holds there: an index of the micro-program; a
push or a pop begins only at its check; at a publish the byte is stored, at a release loaded; in a bracket the mask is
up. -/
structure MicroFlow (i : Instr) (s t : State) : Prop where
  cmd : t.cur.cmd = s.cur.cmd
  index : t.cur.upc.toNat ≤ lastIndex i
  push : pushing i t.cur.upc.toNat = true → t.fullP .tx = s.fullP .tx ∧
    (pushing i s.cur.upc.toNat = true ∨ (s.fullP .tx = false ∧ ¬(s.stepping = .a ∧ s.openP = true)))
  pop : popping i t.cur.upc.toNat = true → t.emptyC .rx = s.emptyC .rx ∧
    (popping i s.cur.upc.toNat = true ∨ (s.emptyC .rx = false ∧ ¬(s.stepping = .a ∧ s.openC = true)))
  stored : ∀ v, publishes t.cur.c i t.cur.upc.toNat = some v → Memory.read t.tx.storage t.tx.head = some v
  loaded : releasing i t.cur.upc.toNat = true → Memory.read t.rx.storage t.rx.tail = some t.cur.t
  bracket : BracketKept i s t t.cur.upc.toNat

/-- The port has answered, or it goes on as its micro-program says. -/
def MicroFlow.Upto (i : Instr) (s t : State) : Prop :=
  (t.cur.busy = false ∧ t.cur.upc = s.cur.upc) ∨ MicroFlow i s t

namespace BracketKept

variable {i : Instr} {s t : State} {k : Nat}

theorem outside (h : bracketed i k = false) : BracketKept i s t k := fun hk _ =>
  Bool.noConfusion (h.symm.trans hk)

theorem entered (h : s.stepping = .f → t.ctrl.imask = true) : BracketKept i s t k := fun _ hf => .inl (h hf)

theorem held {j : Nat} (hj : s.cur.upc.toNat = j) (h : bracketed i j = true) (hc : t.ctrl = s.ctrl) :
    BracketKept i s t k := fun _ _ => .inr ⟨hj ▸ h, by rw [hc]⟩

end BracketKept

namespace MicroFlow

section
variable {i : Instr} {s t : State} {k : Nat}

/-- A step to an index with no push and no pop under way. -/
theorem calm (hcmd : t.cur.cmd = s.cur.cmd) (hk : t.cur.upc.toNat = k)
    (h : (decide (k ≤ lastIndex i) && !pushing i k && !popping i k) = true) (hbr : BracketKept i s t k) : Upto i s t := by
  simp only [Bool.and_eq_true, Bool.not_eq_true', decide_eq_true_eq] at h
  obtain ⟨⟨hlast, hpush⟩, hpop⟩ := h
  subst hk
  refine .inr ⟨hcmd, hlast, fun h => ?_, fun h => ?_, fun v h => ?_, fun h => ?_, hbr⟩
  · exact Bool.noConfusion (hpush.symm.trans h)
  · exact Bool.noConfusion (hpop.symm.trans h)
  · exact Bool.noConfusion (hpush.symm.trans (pushing_of_publishes h))
  · exact Bool.noConfusion (hpop.symm.trans (popping_of_releasing h))

/-- A step to an index inside a push. -/
theorem pushes (hcmd : t.cur.cmd = s.cur.cmd) (hk : t.cur.upc.toNat = k)
    (h : (decide (k ≤ lastIndex i) && !popping i k) = true) (hfull : t.fullP .tx = s.fullP .tx)
    (hfrom : pushing i s.cur.upc.toNat = true ∨ (s.fullP .tx = false ∧ ¬(s.stepping = .a ∧ s.openP = true)))
    (hbyte : ∀ v, publishes t.cur.c i k = some v → Memory.read t.tx.storage t.tx.head = some v)
    (hbr : BracketKept i s t k) : Upto i s t := by
  simp only [Bool.and_eq_true, Bool.not_eq_true', decide_eq_true_eq] at h
  obtain ⟨hlast, hpop⟩ := h
  subst hk
  refine .inr ⟨hcmd, hlast, fun _ => ⟨hfull, hfrom⟩, fun h => ?_, hbyte, fun h => ?_, hbr⟩
  · exact Bool.noConfusion (hpop.symm.trans h)
  · exact Bool.noConfusion (hpop.symm.trans (popping_of_releasing h))

/-- A step to an index inside a pop. -/
theorem pops (hcmd : t.cur.cmd = s.cur.cmd) (hk : t.cur.upc.toNat = k)
    (h : (decide (k ≤ lastIndex i) && !pushing i k) = true) (hempty : t.emptyC .rx = s.emptyC .rx)
    (hfrom : popping i s.cur.upc.toNat = true ∨ (s.emptyC .rx = false ∧ ¬(s.stepping = .a ∧ s.openC = true)))
    (hbyte : releasing i k = true → Memory.read t.rx.storage t.rx.tail = some t.cur.t)
    (hbr : BracketKept i s t k) : Upto i s t := by
  simp only [Bool.and_eq_true, Bool.not_eq_true', decide_eq_true_eq] at h
  obtain ⟨hlast, hpush⟩ := h
  subst hk
  refine .inr ⟨hcmd, hlast, fun h => ?_, fun _ => ⟨hempty, hfrom⟩, fun v h => ?_, hbyte, hbr⟩
  · exact Bool.noConfusion (hpush.symm.trans h)
  · exact Bool.noConfusion (hpush.symm.trans (pushing_of_publishes h))

theorem answered {u : State} (w : Word) (hu : u.cur = s.cur) : Upto i s (u.respond w) :=
  .inl (by simp [hu])

/-- PSTO of a port goes on inside its push, with the byte stored. -/
theorem store {v : Byte} {j : BitVec 4} (h : s.storeThen .tx v j = .next t) (hpush : pushing i s.cur.upc.toNat = true)
    (hj : (decide (j.toNat ≤ lastIndex i) && !popping i j.toNat) = true)
    (hpub : publishes s.cur.c i j.toNat = some v) (hbr : t.ctrl = s.ctrl → BracketKept i s t j.toNat) : Upto i s t := by
  obtain ⟨-, ht⟩ := State.storeThen_next h
  have ht' : t = (s.stored .tx v).goto j := ht
  have hfull : t.fullP .tx = s.fullP .tx := by rw [ht', (SameShared.goto _ _).fullP, s.stored_fullP]
  have hread : Memory.read t.tx.storage t.tx.head = some v := by simp [ht', State.stored, State.ring]
  have hc : t.cur.c = s.cur.c := by simp [ht']
  refine pushes (by simp [ht']) (by simp [ht']) hj hfull (.inl hpush) (fun w hw => ?_) (hbr (by simp [ht', State.stored]))
  rw [hread, ← hpub, ← hw, hc]

/-- CLOD of a port goes on inside its pop, with the byte loaded. -/
theorem load {j : BitVec 4} (h : s.loadT .rx j = .next t) (hpop : popping i s.cur.upc.toNat = true)
    (hj : (decide (j.toNat ≤ lastIndex i) && !pushing i j.toNat) = true)
    (hbr : t.ctrl = s.ctrl → BracketKept i s t j.toNat) : Upto i s t := by
  obtain ⟨v, -, hv, ht⟩ := State.loadT_next h
  have hempty : t.emptyC .rx = s.emptyC .rx :=
    ht ▸ ((SameShared.setCur s _).trans (SameShared.goto _ _)).emptyC
  have hread : Memory.read t.rx.storage t.rx.tail = some t.cur.t := by simpa [ht, State.ring] using hv
  exact pops (by simp [ht]) (by simp [ht]) hj hempty (.inl hpop) (fun _ => hread) (hbr (by simp [ht]))

end

section
variable {d : Byte} {s t : State}

theorem execTxpush (h : execTxpush d s = .next t) : Upto (.txpush d) s t := by
  unfold Machine.execTxpush at h
  split at h <;> rename_i hk
  · obtain ⟨hspsc, ⟨-, rfl⟩ | ⟨hroom, rfl⟩⟩ := State.pchk_next h
    · exact answered _ rfl
    · exact pushes (k := 1) (by simp) (by simp) rfl (SameShared.goto s _).fullP (.inr ⟨hroom, hspsc⟩)
        (by simp [publishes]) (.outside rfl)
  · exact store h (by rw [hk]; rfl) rfl rfl fun _ => .outside rfl
  · cases h; exact answered _ (by simp)
  · cases h

theorem execRxpop (h : execRxpop s = .next t) : Upto .rxpop s t := by
  unfold Machine.execRxpop at h
  split at h <;> rename_i hk
  · obtain ⟨hspsc, ⟨-, rfl⟩ | ⟨hdata, rfl⟩⟩ := State.cchk_next h
    · exact answered _ rfl
    · exact pops (k := 1) (by simp) (by simp) rfl (SameShared.goto s _).emptyC (.inr ⟨hdata, hspsc⟩)
        (by simp [releasing]) (.outside rfl)
  · exact load h (by rw [hk]; rfl) rfl fun _ => .outside rfl
  · cases h; exact answered _ (by simp)
  · cases h

theorem execRd (h : execRd s = .next t) : Upto .rd s t := by
  unfold Machine.execRd at h
  split at h <;> rename_i hk
  · cases h
    exact calm (k := 1) (by simp) (by simp) rfl (.entered fun hf => by simpa using State.enter_imask hf)
  · obtain ⟨hspsc, ⟨-, rfl⟩ | ⟨hdata, rfl⟩⟩ := State.cchk_next h
    · exact calm (k := 5) (by simp) (by simp) rfl (.held hk rfl (by simp))
    · exact pops (k := 2) (by simp) (by simp) rfl (SameShared.goto s _).emptyC (.inr ⟨hdata, hspsc⟩)
        (by simp [releasing]) (.held hk rfl (by simp))
  · exact load h (by rw [hk]; rfl) rfl fun hc => .held hk rfl hc
  · cases h
    exact calm (k := 4) (by simp) (by simp) rfl (.held hk rfl (by simp))
  · cases h; exact answered _ (by simp)
  · cases h; exact answered _ (by simp)
  · cases h

theorem execWr (h : execWr d s = .next t) : Upto (.wr d) s t := by
  unfold Machine.execWr at h
  split at h <;> rename_i hk
  · cases h
    exact calm (k := 1) (by simp [State.xlat_cmd]) (by simp) rfl (.outside rfl)
  · cases h
    rcases s.filt_cases with hf | hf <;> rw [hf]
    · exact calm (k := 2) (by simp) (by simp) rfl (.outside rfl)
    · exact calm (k := 9) (by simp) (by simp) rfl (.outside rfl)
  · cases h
    exact calm (k := 3) (by simp) (by simp) rfl (.entered fun hf => by simpa using State.enter_imask hf)
  · obtain ⟨hspsc, ⟨-, rfl⟩ | ⟨hroom, rfl⟩⟩ := State.pchk_next h
    · exact calm (k := 7) (by simp) (by simp) rfl (.held hk rfl (by simp))
    · exact pushes (k := 4) (by simp) (by simp) rfl (SameShared.goto s _).fullP (.inr ⟨hroom, hspsc⟩)
        (by simp [publishes]) (.held hk rfl (by simp))
  · exact store h (by rw [hk]; rfl) rfl rfl fun hc => .held hk rfl hc
  · cases h
    exact calm (k := 6) (by simp) (by simp) rfl (.held hk rfl (by simp))
  · cases h
    exact calm (k := 8) (by simp) (by simp) rfl (.outside rfl)
  · cases h
    exact calm (k := 9) (by simp) (by simp) rfl (.outside rfl)
  · cases h
    exact calm (k := 9) (by simp) (by simp) rfl (.outside rfl)
  · cases h
    unfold State.nextByte
    split
    · exact calm (k := 1) (by simp) (by simp) rfl (.outside rfl)
    · exact answered _ rfl
  · cases h

/-- A command of one micro-step answers at it. -/
theorem single {i : Instr} {u : State} {w : Word} (hu : u.cur = s.cur) (h : single s (u.respond w) = .next t) :
    Upto i s t := by
  obtain ⟨-, rfl⟩ := single_next h
  exact answered w hu

theorem exec {i : Instr} (h : exec i s = .next t) : Upto i s t := by
  cases i with
  | rd => exact execRd h
  | wr d => exact execWr h
  | rxpop => exact execRxpop h
  | txpush d => exact execTxpush h
  | fstep d => exact single (s.filter_cur d) h
  | ctls d => exact single (u := { s with ctrl := s.ctrl.setBits d }) (State.cur_congr rfl rfl rfl) h
  | ctlc d => exact single (u := { s with ctrl := s.ctrl.clearBits d }) (State.cur_congr rfl rfl rfl) h
  | cack => exact single (u := { s with cancelPend := false }) (State.cur_congr rfl rfl rfl) h
  | nop | rxempty | txfull | ctlr | stat | ptrr => exact single rfl h

end

end MicroFlow

/-- After a micro-step of any word its port has answered, or goes on in the micro-program of a legal one. -/
theorem State.runMicro_flow {s t : State} (hb : s.cur.busy = true) (h : s.runMicro = .next t) :
    (t.cur.busy = false ∧ t.cur.upc = s.cur.upc) ∨ ∃ i, s.running s.stepping = some i ∧ MicroFlow i s t := by
  unfold State.runMicro at h
  split at h
  · exact (MicroFlow.exec h).imp_right fun hf => ⟨_, State.running_of_decode hb (by assumption), hf⟩
  · obtain ⟨-, rfl⟩ := single_next h
    exact .inl (by simp)

end Sys2Proof.Machine
end

section
/-! SUPPORT. The invariant of the ports and of the whole state, kept by every step (10_state.md R43, R49; 41_sync.md R159;
42_channel.md R173; 60_exceptions.md R230, R250). -/

namespace Sys2Proof.Machine

/-! ### Where a port stands depends on its latches alone -/

theorem State.running_congr {s t : State} {x : Port} (h : t.port x = s.port x) : t.running x = s.running x := by
  rw [State.running, State.running, h]

theorem State.stands_congr {s t : State} {x : Port} (h : t.port x = s.port x) (p : Instr → Nat → Bool) :
    t.stands x p = s.stands x p := by
  rw [State.stands, State.stands, State.running_congr h, h]

theorem State.publishByte_congr {s t : State} {x : Port} (h : t.port x = s.port x) :
    t.publishByte x = s.publishByte x := by
  rw [State.publishByte, State.publishByte, State.running_congr h, h]

theorem State.lastStep_congr {s t : State} {x : Port} (h : t.port x = s.port x) : t.lastStep x = s.lastStep x := by
  rw [State.lastStep, State.lastStep, h]

theorem State.stands_iff {s : State} {x : Port} {p : Instr → Nat → Bool} :
    s.stands x p = true ↔ ∃ i, s.running x = some i ∧ p i (s.port x).upc.toNat = true := by
  unfold State.stands
  cases s.running x <;> simp

theorem State.stands_imp {s : State} {x : Port} {p q : Instr → Nat → Bool} (hpq : ∀ i k, p i k = true → q i k = true)
    (h : s.stands x p = true) : s.stands x q = true := by
  obtain ⟨i, hrun, hp⟩ := State.stands_iff.mp h
  exact State.stands_iff.mpr ⟨i, hrun, hpq _ _ hp⟩

theorem State.stands_of_publishByte {s : State} {x : Port} {v : Byte} (h : s.publishByte x = some v) :
    s.stands x pushing = true := by
  unfold State.publishByte at h
  split at h
  · rw [State.stands_of_running (by assumption)]
    exact pushing_of_publishes h
  · cases h

theorem State.running_busy {s : State} {x : Port} {i : Instr} (h : s.running x = some i) :
    (s.port x).busy = true ∧ decode (s.port x).cmd = .ok i := by
  unfold State.running at h
  split at h
  · split at h
    · cases h; exact ⟨by assumption, by assumption⟩
    · cases h
  · cases h

theorem State.stands_busy {s : State} {x : Port} {p : Instr → Nat → Bool} (h : s.stands x p = true) :
    (s.port x).busy = true :=
  let ⟨_, hrun, _⟩ := State.stands_iff.mp h
  (State.running_busy hrun).1

/-- At its first micro-step a command has nothing under way. -/
theorem State.not_stands_zero {s : State} {x : Port} (h : (s.port x).upc = 0) {p : Instr → Nat → Bool}
    (hp : ∀ i, p i 0 = false) : s.stands x p = false := by
  by_contra hc
  obtain ⟨i, -, hi⟩ := State.stands_iff.mp (by simpa using hc)
  rw [h] at hi
  exact Bool.noConfusion ((hp i).symm.trans hi)

theorem pushing_zero (i : Instr) : pushing i 0 = false := by cases i <;> rfl

theorem popping_zero (i : Instr) : popping i 0 = false := by cases i <;> rfl

theorem bracketed_zero (i : Instr) : bracketed i 0 = false := by cases i <;> rfl

theorem lastIndex_le_nine (i : Instr) : lastIndex i ≤ 9 := by cases i <;> simp [lastIndex]

/-- A push outside a bracket is a TXPUSH past its check (40_ring.md R135, 42_channel.md R174). -/
theorem txpush_of_pushing {i : Instr} {k : BitVec 4} (h : pushing i k.toNat = true) (hbr : bracketed i k.toNat = false) :
    (∃ d, i = .txpush d) ∧ (k = 1 ∨ k = 2) := by
  cases i with
  | txpush d => exact ⟨⟨d, rfl⟩, by simpa [pushing, ← BitVec.toNat_inj] using h⟩
  | wr d =>
    simp only [pushing, bracketed, Bool.or_eq_true, beq_iff_eq, Bool.and_eq_false_iff, decide_eq_false_iff_not] at h hbr
    omega
  | _ => cases h

/-- A pop outside a bracket is a RXPOP past its check (40_ring.md R137, 42_channel.md R171). -/
theorem rxpop_of_popping {i : Instr} {k : BitVec 4} (h : popping i k.toNat = true) (hbr : bracketed i k.toNat = false) :
    i = .rxpop ∧ (k = 1 ∨ k = 2) := by
  cases i with
  | rxpop => exact ⟨rfl, by simpa [popping, ← BitVec.toNat_inj] using h⟩
  | rd =>
    simp only [popping, bracketed, Bool.or_eq_true, beq_iff_eq, Bool.and_eq_false_iff, decide_eq_false_iff_not] at h hbr
    omega
  | _ => cases h

/-- A push of port F outside a bracket has the producer end open (10_state.md R48). -/
theorem State.openP_of_stands {s : State} (h : s.stands .f pushing = true) (hbr : s.stands .f bracketed = false) :
    s.openP = true := by
  obtain ⟨i, hrun, hp⟩ := State.stands_iff.mp h
  rw [State.stands_of_running hrun] at hbr
  obtain ⟨⟨d, rfl⟩, hk⟩ := txpush_of_pushing hp hbr
  obtain ⟨hbusy, hdec⟩ : s.f.busy = true ∧ decode s.f.cmd = .ok (.txpush d) := State.running_busy hrun
  have hk' : s.f.upc = 1 ∨ s.f.upc = 2 := hk
  simpa [State.openP, hbusy, hdec] using hk'

/-- A pop of port F outside a bracket has the consumer end open (10_state.md R48). -/
theorem State.openC_of_stands {s : State} (h : s.stands .f popping = true) (hbr : s.stands .f bracketed = false) :
    s.openC = true := by
  obtain ⟨i, hrun, hp⟩ := State.stands_iff.mp h
  rw [State.stands_of_running hrun] at hbr
  obtain ⟨rfl, hk⟩ := rxpop_of_popping hp hbr
  obtain ⟨hbusy, hdec⟩ : s.f.busy = true ∧ decode s.f.cmd = .ok .rxpop := State.running_busy hrun
  have hk' : s.f.upc = 1 ∨ s.f.upc = 2 := hk
  simpa [State.openC, hbusy, hdec] using hk'

/-! ### What a decoded word says of where its port stands -/

section
variable {s : State} {x : Port} {i : Instr}

theorem State.of_stands (hd : decode (s.port x).cmd = .ok i) {p : Instr → Nat → Bool} (h : s.stands x p = true) :
    p i (s.port x).upc.toNat = true := by
  obtain ⟨j, hrun, hp⟩ := State.stands_iff.mp h
  obtain ⟨-, hj⟩ := State.running_busy hrun
  cases hj.symm.trans hd
  exact hp

theorem State.of_publishByte (hd : decode (s.port x).cmd = .ok i) {v : Byte} (h : s.publishByte x = some v) :
    publishes (s.port x).c i (s.port x).upc.toNat = some v := by
  obtain ⟨j, hrun, -⟩ := State.stands_iff.mp (State.stands_of_publishByte h)
  obtain ⟨-, hj⟩ := State.running_busy hrun
  cases hj.symm.trans hd
  rwa [State.publishByte_of_running hrun] at h

theorem State.lastStep_of_decode (hd : decode (s.port x).cmd = .ok i) : s.lastStep x = lastIndex i := by
  simp [State.lastStep, hd]

theorem State.not_stands_idle (h : (s.port x).busy = false) (p : Instr → Nat → Bool) : s.stands x p = false := by
  by_contra hc
  exact Bool.noConfusion (h.symm.trans (State.stands_busy (by simpa using hc)))

end

/-! ### The invariant of one port -/

namespace PortInv

section
variable {s t : State} {x : Port}

/-- A port with neither a push nor a pop under way. -/
theorem of_calm (hupc : (s.port x).upc.toNat ≤ 9) (hlast : (s.port x).busy = true → (s.port x).upc.toNat ≤ s.lastStep x)
    (hpush : s.stands x pushing = false) (hpop : s.stands x popping = false) : PortInv s x where
  upc_le := hupc
  index_le := hlast
  push_room h := Bool.noConfusion (hpush.symm.trans h)
  pop_data h := Bool.noConfusion (hpop.symm.trans h)
  stored _ h := Bool.noConfusion (hpush.symm.trans (State.stands_of_publishByte h))
  loaded h := Bool.noConfusion (hpop.symm.trans (State.stands_imp (fun _ _ => popping_of_releasing) h))

/-- A change outside the latches of the port, which leaves a push under way its room and its byte, and a pop under way
its data. -/
theorem mono (h : PortInv s x) (hport : t.port x = s.port x)
    (hpush : s.stands x pushing = true → s.fullP .tx = false →
      t.fullP .tx = false ∧ Memory.read t.tx.storage t.tx.head = Memory.read s.tx.storage s.tx.head)
    (hpop : s.stands x popping = true → s.emptyC .rx = false →
      t.emptyC .rx = false ∧ Memory.read t.rx.storage t.rx.tail = Memory.read s.rx.storage s.rx.tail) : PortInv t x where
  upc_le := by rw [hport]; exact h.upc_le
  index_le := by rw [hport, State.lastStep_congr hport]; exact h.index_le
  push_room hs := by
    rw [State.stands_congr hport] at hs
    exact (hpush hs (h.push_room hs)).1
  pop_data hs := by
    rw [State.stands_congr hport] at hs
    exact (hpop hs (h.pop_data hs)).1
  stored v hv := by
    rw [State.publishByte_congr hport] at hv
    have hs := State.stands_of_publishByte hv
    rw [(hpush hs (h.push_room hs)).2]
    exact h.stored v hv
  loaded hs := by
    rw [State.stands_congr hport] at hs
    have hp := State.stands_imp (fun _ _ => popping_of_releasing) hs
    rw [(hpop hp (h.pop_data hp)).2, hport]
    exact h.loaded hs

theorem congr (h : PortInv s x) (hport : t.port x = s.port x) (hcfg : t.cfg = s.cfg) (hrx : t.rx = s.rx)
    (htx : t.tx = s.tx) : PortInv t x :=
  h.mono hport (fun _ hroom => ⟨(State.fullP_congr (b := .tx) hcfg htx).trans hroom, by rw [htx]⟩)
    (fun _ hdata => ⟨(State.emptyC_congr (b := .rx) hcfg hrx).trans hdata, by rw [hrx]⟩)

end

/-- The port that made a micro-step of `i` and goes on. -/
theorem of_flow {s t : State} {i : Instr} (h : PortInv s s.stepping) (hrun : s.running s.stepping = some i)
    (hins : t.insvc = s.insvc) (hf : MicroFlow i s t) : PortInv t s.stepping := by
  have hx : t.port s.stepping = t.cur := by rw [State.cur, State.stepping_congr hins]
  obtain ⟨-, hdec⟩ := State.running_busy hrun
  have hd : decode (t.port s.stepping).cmd = .ok i := by rw [hx, hf.cmd]; exact hdec
  refine ⟨?_, fun _ => ?_, fun hs => ?_, fun hs => ?_, fun v hv => ?_, fun hs => ?_⟩
  · rw [hx]; exact hf.index.trans (lastIndex_le_nine i)
  · rw [State.lastStep_of_decode hd, hx]; exact hf.index
  · have hp := State.of_stands hd hs
    rw [hx] at hp
    obtain ⟨hfull, hk | ⟨hroom, -⟩⟩ := hf.push hp
    · rw [hfull]; exact h.push_room (by rw [State.stands_of_running hrun]; exact hk)
    · rw [hfull]; exact hroom
  · have hp := State.of_stands hd hs
    rw [hx] at hp
    obtain ⟨hempty, hk | ⟨hdata, -⟩⟩ := hf.pop hp
    · rw [hempty]; exact h.pop_data (by rw [State.stands_of_running hrun]; exact hk)
    · rw [hempty]; exact hdata
  · have hp := State.of_publishByte hd hv
    rw [hx] at hp
    exact hf.stored v hp
  · have hp := State.of_stands hd hs
    rw [hx] at hp ⊢
    exact hf.loaded hp

end PortInv

/-! ### The invariant of the whole state -/

namespace Inv

section
variable {s t u : State}

theorem ring (h : Inv s) (b : RingId) : RingInv s b := by
  cases b
  · exact h.rx_ok
  · exact h.tx_ok

theorem port (h : Inv s) (x : Port) : PortInv s x := by
  cases x
  · exact h.f_ok
  · exact h.a_ok

theorem pusher_unique (h : Inv s) {x y : Port} (hx : s.stands x pushing = true) (hy : s.stands y pushing = true) :
    x = y := by
  cases x <;> cases y
  · rfl
  · exact absurd ⟨hx, hy⟩ h.one_pusher
  · exact absurd ⟨hy, hx⟩ h.one_pusher
  · rfl

theorem popper_unique (h : Inv s) {x y : Port} (hx : s.stands x popping = true) (hy : s.stands y popping = true) :
    x = y := by
  cases x <;> cases y
  · rfl
  · exact absurd ⟨hx, hy⟩ h.one_popper
  · exact absurd ⟨hy, hx⟩ h.one_popper
  · rfl

/-! ### The rings -/

theorem micro_ring (h : Inv s) (hu : MicroEffect s u) (b : RingId) : RingInv u b := by
  cases hu with
  | store v =>
    cases b
    · exact h.rx_ok.congr rfl rfl
    · exact h.tx_ok.stored v
  | publish hpub =>
    cases b
    · exact h.rx_ok.congr rfl rfl
    · obtain ⟨v, hv⟩ := Option.isSome_iff_exists.mp hpub
      have hread : (Memory.read s.tx.storage s.tx.head).isSome = true := by rw [(h.port _).stored v hv]; rfl
      exact h.tx_ok.ppub ((h.port _).push_room (State.stands_of_publishByte hv)) hread
  | release hrel =>
    cases b
    · exact h.rx_ok.crel ((h.port _).pop_data (State.stands_imp (fun _ _ => popping_of_releasing) hrel))
    · exact h.tx_ok.congr rfl rfl
  | none | enter | exit | kick | setCtrl | filter | clearCancel =>
    exact (h.ring b).congr (by simp) (by cases b <;> simp [State.ring])

theorem step_ring (h : Inv s) {e : Event} (hu : StepEffect s e u) (b : RingId) : RingInv u b := by
  cases hu with
  | none => exact h.ring b
  | micro hm => exact h.micro_ring hm b
  | receive v hroom =>
    cases b
    · have hread : Memory.read ((s.stored .rx v).ring .rx).storage ((s.stored .rx v).ring .rx).head = some v := by
        simp [s.stored_ring]
      exact (h.rx_ok.stored v).ppub (by simpa using hroom) (by rw [hread]; rfl)
    · exact h.tx_ok.congr rfl rfl
  | send hdata =>
    cases b
    · exact h.rx_ok.congr rfl rfl
    · exact h.tx_ok.crel hdata
  | syn c p k hlag _ hle =>
    by_cases hc : b = c
    · subst hc; exact (h.ring b).synStep hlag hle
    · exact (h.ring b).congr (by simp) (State.setRing_ring_of_ne _ _ hc)
  | stop | quirk => exact (h.ring b).congr (by simp) (by cases b <;> simp [State.ring])

/-! ### A port that does not step -/

theorem micro_port (h : Inv s) (hu : MicroEffect s u) {x : Port} (hx : x ≠ s.stepping) : PortInv u x := by
  cases hu with
  | store v _ hpush =>
    exact (h.port x).mono (State.port_congr rfl rfl x) (fun hs => absurd (h.pusher_unique hs hpush) hx)
      (fun _ hdata => ⟨hdata, rfl⟩)
  | publish hpub =>
    obtain ⟨v, hv⟩ := Option.isSome_iff_exists.mp hpub
    exact (h.port x).mono (State.port_congr rfl rfl x)
      (fun hs => absurd (h.pusher_unique hs (State.stands_of_publishByte hv)) hx) (fun _ hdata => ⟨hdata, rfl⟩)
  | release hrel =>
    have hpop := State.stands_imp (fun _ _ => popping_of_releasing) hrel
    exact (h.port x).mono (State.port_congr rfl rfl x) (fun _ hroom => ⟨hroom, rfl⟩)
      (fun hs => absurd (h.popper_unique hs hpop) hx)
  | none | enter | exit | kick | setCtrl | filter | clearCancel =>
    exact (h.port x).congr (State.port_congr (by simp) (by simp) x) (by simp) (by simp) (by simp)

theorem step_port (h : Inv s) {e : Event} (hu : StepEffect s e u) {x : Port}
    (hx : e = .micro s.stepping → x ≠ s.stepping) : PortInv u x := by
  cases hu with
  | none => exact h.port x
  | micro hm => exact h.micro_port hm (hx rfl)
  | receive v hroom =>
    refine (h.port x).mono (State.port_congr rfl rfl x) (fun _ hroom => ⟨hroom, rfl⟩) fun _ hdata => ⟨?_, ?_⟩
    · exact (h.rx_ok.stored v).ppub_emptyC (by simpa using hroom) (by simpa using hdata)
    · exact Memory.read_write_other _ v (h.rx_ok.tail_ne_head hdata)
  | send hdata =>
    exact (h.port x).mono (State.port_congr rfl rfl x)
      (fun _ hroom => ⟨h.tx_ok.crel_fullP hdata hroom, rfl⟩) (fun _ hd => ⟨hd, rfl⟩)
  | syn b p k hlag _ hle =>
    obtain ⟨htxHead, -, htxMem⟩ := s.synStep_pointers b p k .tx
    obtain ⟨-, hrxTail, hrxMem⟩ := s.synStep_pointers b p k .rx
    refine (h.port x).mono (State.port_congr (by simp) (by simp) x) (fun _ hroom => ⟨?_, congrArg₂ _ htxMem htxHead⟩)
      (fun _ hdata => ⟨?_, congrArg₂ _ hrxMem hrxTail⟩)
    · cases b
      · exact hroom
      · exact h.tx_ok.synStep_fullP hlag hle hroom
    · cases b
      · exact h.rx_ok.synStep_emptyC hlag hle hdata
      · exact hdata
  | stop | quirk => exact (h.port x).congr (State.port_congr (by simp) (by simp) x) (by simp) (by simp) (by simp)

/-! ### Putting the parts together -/

/-- A step that writes no latch of a port. -/
theorem of_latches (h : Inv s) (hcfg : t.cfg = s.cfg) (hring : ∀ b, RingInv t b) (hport : ∀ x, PortInv t x)
    (hf : t.f = s.f) (ha : t.a = s.a) (hsession : s.a.busy = true → t.insvc = .a)
    (hbracket : s.stands .f bracketed = true → t.ctrl.imask = true ∧ t.insvc = .none) : Inv t where
  cfg_wf := by rw [hcfg]; exact h.cfg_wf
  rx_ok := hring .rx
  tx_ok := hring .tx
  f_ok := hport .f
  a_ok := hport .a
  session := by rw [ha]; exact hsession
  bracket := by rw [State.stands_congr (State.port_congr hf ha .f)]; exact hbracket
  one_pusher := by
    rw [State.stands_congr (State.port_congr hf ha .f), State.stands_congr (State.port_congr hf ha .a)]
    exact h.one_pusher
  one_popper := by
    rw [State.stands_congr (State.port_congr hf ha .f), State.stands_congr (State.port_congr hf ha .a)]
    exact h.one_popper

/-- A step of the port that may step, a micro-step or an acceptance: it begins a push or a pop only at a check that is no
violation, and on port F it keeps the mask up inside a bracket. -/
theorem of_stepping (h : Inv s) (hcfg : t.cfg = s.cfg) (hins : t.insvc = s.insvc)
    (hother : t.port s.stepping.other = s.port s.stepping.other) (hring : ∀ b, RingInv t b) (hport : ∀ x, PortInv t x)
    (hbr : s.stepping = .f → t.stands .f bracketed = true → t.ctrl.imask = true)
    (hpush : t.stands s.stepping pushing = true →
      s.stands s.stepping pushing = true ∨ ¬(s.stepping = .a ∧ s.openP = true))
    (hpop : t.stands s.stepping popping = true →
      s.stands s.stepping popping = true ∨ ¬(s.stepping = .a ∧ s.openC = true)) : Inv t := by
  have hwf : t.cfg.wf = true := by rw [hcfg]; exact h.cfg_wf
  cases hs : s.stepping with
  | f =>
    have hidle : s.insvc = .none := State.stepping_eq_f.mp hs
    have ha : t.port .a = s.port .a := by rw [hs] at hother; exact hother
    have hbusy : (t.port .a).busy = false := by
      rw [ha]
      by_contra hc
      have hopen := h.session (Bool.eq_true_of_not_eq_false hc)
      rw [hidle] at hopen
      cases hopen
    have hstands (p : Instr → Nat → Bool) : t.stands .a p = false := State.not_stands_idle hbusy p
    exact ⟨hwf, hring .rx, hring .tx, hport .f, hport .a, fun hb => Bool.noConfusion (hbusy.symm.trans hb),
      fun hb => ⟨hbr hs hb, hins.trans hidle⟩, by simp [hstands], by simp [hstands]⟩
  | a =>
    have hopen : s.insvc = .a := State.stepping_eq_a.mp hs
    have hf : t.port .f = s.port .f := by rw [hs] at hother; exact hother
    have hfree : s.stands .f bracketed = false := by
      by_contra hc
      obtain ⟨-, hnone⟩ := h.bracket (by simpa using hc)
      rw [hopen] at hnone
      cases hnone
    rw [hs] at hpush hpop
    refine ⟨hwf, hring .rx, hring .tx, hport .f, hport .a, fun _ => hins.trans hopen, fun hb => ?_, ?_, ?_⟩
    · rw [State.stands_congr hf, hfree] at hb
      cases hb
    · rintro ⟨hpf, hpa⟩
      rw [State.stands_congr hf] at hpf
      rcases hpush hpa with hp | hp
      · exact h.one_pusher ⟨hpf, hp⟩
      · exact hp ⟨rfl, State.openP_of_stands hpf hfree⟩
    · rintro ⟨hpf, hpa⟩
      rw [State.stands_congr hf] at hpf
      rcases hpop hpa with hp | hp
      · exact h.one_popper ⟨hpf, hp⟩
      · exact hp ⟨rfl, State.openC_of_stands hpf hfree⟩

end

end Inv

end Sys2Proof.Machine
end

section
/-! PROOFS. The invariant of runs without a fault: it holds after reset, every step keeps it, and the one stop from it is
`SpscViolation` (10_state.md R28, R43, R49; 41_sync.md R159; 60_exceptions.md R230). -/

namespace Sys2Proof.Machine

/-! ### After reset -/

/-- Settles O12: all pointers are 0, the rings are empty and no port is busy. -/
theorem resetMeetsTheInvariant : Obligations.ResetMeetsTheInvariant := by
  intro c hwf
  have hbusy (x : Port) : ((State.resetWith c).port x).busy = false := by cases x <;> rfl
  have hstands (x : Port) (p : Instr → Nat → Bool) : (State.resetWith c).stands x p = false :=
    State.not_stands_idle (hbusy x) p
  have hring (b : RingId) : RingInv (State.resetWith c) b := by
    have hpos : 0 < c.cap b := Nat.zero_lt_of_lt (Config.two_le_cap hwf b)
    have hr : (State.resetWith c).ring b = Ring.reset := by cases b <;> rfl
    refine RingInv.of_ring (n := c.cap b) (hv := 0) (tv := 0) rfl hr ?_ ?_ hpos hpos hpos hpos Ring.reset_storage_wf
      (by simp [Ring.reset]) (by simp [Ring.reset, distN_self hpos]) (by simp [Ring.reset, distN_self hpos])
    · simp [State.headView, hr, Ring.reset]
    · simp [State.tailView, hr, Ring.reset]
  have hport (x : Port) : PortInv (State.resetWith c) x := by
    refine PortInv.of_calm ?_ (fun hb => Bool.noConfusion ((hbusy x).symm.trans hb)) (hstands x _) (hstands x _)
    cases x <;> exact Nat.zero_le 9
  exact ⟨hwf, hring .rx, hring .tx, hport .f, hport .a, fun hb => Bool.noConfusion hb,
    by simp [hstands], by simp [hstands], by simp [hstands]⟩

/-! ### Every step -/

theorem MicroEffect.port {s u : State} (h : MicroEffect s u) (x : Port) : u.port x = s.port x := by
  cases h <;> exact State.port_congr (by simp [State.stored]) (by simp [State.stored]) x

theorem StepEffect.port {s u : State} {e : Event} (h : StepEffect s e u) (x : Port) : u.port x = s.port x := by
  cases h with
  | micro hm => exact hm.port x
  | none | receive | stop | send | syn | quirk =>
    exact State.port_congr (by simp [State.stored]) (by simp [State.stored]) x

/-- No agent writes the mask (10_state.md R38). -/
theorem StepEffect.imask {s u : State} {e : Event} (h : StepEffect s e u) (he : e ≠ .micro s.stepping) :
    u.ctrl.imask = s.ctrl.imask := by
  cases h with
  | micro => exact absurd rfl he
  | quirk x => cases x <;> rfl
  | none | receive | stop | send | syn => simp [State.stored]

theorem State.rxpStep_insvc {s t : State} {v : Byte} (h : s.rxpStep v = .next t) : t.insvc = s.insvc := by
  obtain ⟨⟨r, u⟩, hpush, ht⟩ := onOk_next h
  cases ht
  rcases State.pushAtomic_ok hpush with ⟨-, -, rfl⟩ | ⟨-, -, -, rfl⟩ <;> simp

theorem State.txcStep_insvc {s t : State} (h : s.txcStep = .next t) : t.insvc = s.insvc := by
  obtain ⟨⟨r, u⟩, hpop, ht⟩ := onOk_next h
  rcases State.popAtomic_ok hpop with ⟨-, rfl, rfl⟩ | ⟨v, -, rfl, -, -, rfl⟩ <;> cases ht <;> simp

theorem Port.eq_or_other (x y : Port) : y = x ∨ y = x.other := by
  cases x <;> cases y <;> simp [Port.other]

namespace Inv

section
variable {s t : State}

theorem popScript (h : Inv s) : Inv s.popScript :=
  h.of_latches rfl (fun b => (h.ring b).congr rfl (by cases b <;> rfl))
    (fun x => (h.port x).congr (State.port_congr rfl rfl x) rfl rfl rfl) rfl rfl h.session h.bracket

/-- An agent that leaves the mask and the session as they are. -/
theorem agent (h : Inv s) (hlatch : t.cfg = s.cfg ∧ t.f = s.f ∧ t.a = s.a) (hring : ∀ b, RingInv t b)
    (hport : ∀ x, t.port x = s.port x → PortInv t x) (hins : t.insvc = s.insvc)
    (hmask : t.ctrl.imask = s.ctrl.imask) : Inv t := by
  obtain ⟨hcfg, hf, ha⟩ := hlatch
  refine h.of_latches hcfg hring (fun x => hport x (State.port_congr hf ha x)) hf ha ?_ ?_
  · rw [hins]; exact h.session
  · rw [hins, hmask]; exact h.bracket

/-- A micro-step: its port has answered, or goes on as its micro-program says. -/
theorem micro (h : Inv s) (hb : s.cur.busy = true) (hp : s.runMicro = .next t) (hring : ∀ b, RingInv t b)
    (hother : PortInv t s.stepping.other) : Inv t := by
  have hframe := MicroFrame.runMicro hp
  have hx : t.port s.stepping = t.cur := by rw [State.cur, State.stepping_congr hframe.insvc]
  have both (hown : PortInv t s.stepping) (x : Port) : PortInv t x := by
    rcases Port.eq_or_other s.stepping x with rfl | rfl
    · exact hown
    · exact hother
  rcases State.runMicro_flow hb hp with ⟨hidle, hupc⟩ | ⟨i, hrun, hf⟩
  · have hstands (p : Instr → Nat → Bool) : t.stands s.stepping p = false :=
      State.not_stands_idle (by rw [hx]; exact hidle) p
    refine h.of_stepping hframe.cfg hframe.insvc hframe.other hring (both (.of_calm ?_ ?_ (hstands _) (hstands _)))
      (fun hf hbr => ?_) (fun hs => ?_) (fun hs => ?_)
    · rw [hx, hupc]; exact (h.port s.stepping).upc_le
    · rw [hx, hidle]; exact fun hc => Bool.noConfusion hc
    · rw [← hf, hstands] at hbr; cases hbr
    · rw [hstands] at hs; cases hs
    · rw [hstands] at hs; cases hs
  · obtain ⟨-, hdec⟩ := State.running_busy hrun
    have hd : decode (t.port s.stepping).cmd = .ok i := by rw [hx, hf.cmd]; exact hdec
    have hstands (p : Instr → Nat → Bool) : s.stands s.stepping p = p i s.cur.upc.toNat :=
      State.stands_of_running hrun p
    refine h.of_stepping hframe.cfg hframe.insvc hframe.other hring
      (both ((h.port s.stepping).of_flow hrun hframe.insvc hf)) (fun hsf hbr => ?_) (fun hs => ?_) (fun hs => ?_)
    · rw [← hsf] at hbr
      rcases hf.bracket (hx ▸ State.of_stands hd hbr) hsf with hmask | ⟨hk, hmask⟩
      · exact hmask
      · rw [hmask]
        exact (h.bracket (by rw [← hsf, hstands]; exact hk)).1
    · rw [hstands]
      exact (hf.push (hx ▸ State.of_stands hd hs)).2.imp_right And.right
    · rw [hstands]
      exact (hf.pop (hx ▸ State.of_stands hd hs)).2.imp_right And.right

/-- An acceptance: the port stands at u0, where nothing is under way. -/
theorem accept (h : Inv s) (w : Word) (hring : ∀ b, RingInv (s.acceptWord s.stepping w) b)
    (hother : PortInv (s.acceptWord s.stepping w) s.stepping.other) : Inv (s.acceptWord s.stepping w) := by
  have hupc : ((s.acceptWord s.stepping w).port s.stepping).upc = 0 := by simp [State.acceptWord]
  have hidle {p : Instr → Nat → Bool} (hp : ∀ i, p i 0 = false) :
      (s.acceptWord s.stepping w).stands s.stepping p = false := State.not_stands_zero hupc hp
  refine h.of_stepping (by simp) (by simp) (by simp [State.acceptWord]) hring (fun x => ?_) (fun hf hbr => ?_)
    (fun hs => ?_) (fun hs => ?_)
  · rcases Port.eq_or_other s.stepping x with rfl | rfl
    · exact .of_calm (by simp [hupc]) (by simp [hupc]) (hidle pushing_zero) (hidle popping_zero)
    · exact hother
  · have hz := hidle bracketed_zero
    rw [hf] at hz
    rw [hf, hz] at hbr
    cases hbr
  · rw [hidle pushing_zero] at hs; cases hs
  · rw [hidle popping_zero] at hs; cases hs

theorem perform (h : Inv s) {e : Event} (he : s.enabled e = true) (hp : s.perform e = .next t) : Inv t := by
  obtain ⟨u, hu, hut⟩ := StepEffect.perform he hp
  have hring (b : RingId) : RingInv t b :=
    (h.step_ring hu b).congr hut.cfg (by cases b <;> simp [State.ring, hut.rx, hut.tx])
  have hkeep (x : Port) (hx : e = .micro s.stepping → x ≠ s.stepping) (hport : t.port x = s.port x) : PortInv t x :=
    (h.step_port hu hx).congr (hport.trans (hu.port x).symm) hut.cfg hut.rx hut.tx
  obtain ⟨-, hother⟩ := State.perform_keepsIdlePort he hp
  have hrest : PortInv t s.stepping.other := hkeep _ (fun _ => s.stepping.other_ne) hother
  have hmask (hm : e ≠ .micro s.stepping) : t.ctrl.imask = s.ctrl.imask := by rw [hut.ctrl, hu.imask hm]
  cases e with
  | accept x w =>
    obtain ⟨rfl, -⟩ : s.stepping = x ∧ (s.port x).busy = false := by simpa [State.enabled, State.cmdReady] using he
    cases hp
    exact h.accept w hring hrest
  | micro x =>
    obtain ⟨rfl, hb⟩ : s.stepping = x ∧ (s.port x).busy = true := by simpa [State.enabled] using he
    exact h.micro hb hp hring hrest
  | aEnter =>
    obtain ⟨-, hlow⟩ : s.insvc = .none ∧ s.ctrl.imask = false := by
      simpa [State.enabled, State.interruptible] using he
    cases hp
    refine h.of_latches rfl hring (fun x => hkeep x nofun (State.port_congr rfl rfl x)) rfl rfl (fun _ => rfl)
      fun hbr => ?_
    exact Bool.noConfusion (hlow.symm.trans (h.bracket hbr).1)
  | aLeave =>
    obtain ⟨-, hidle⟩ : s.insvc = .a ∧ s.a.busy = false := by simpa [State.enabled] using he
    cases hp
    exact h.of_latches rfl hring (fun x => hkeep x nofun (State.port_congr rfl rfl x)) rfl rfl
      (fun hb => Bool.noConfusion (hidle.symm.trans hb)) fun hbr => ⟨(h.bracket hbr).1, rfl⟩
  | rxp v =>
    exact h.agent (State.rxpStep_latches hp) hring (fun x => hkeep x nofun) (State.rxpStep_insvc hp) (hmask nofun)
  | txc => exact h.agent (State.txcStep_latches hp) hring (fun x => hkeep x nofun) (State.txcStep_insvc hp) (hmask nofun)
  | syn b p k =>
    cases hp
    exact h.agent (by simp) hring (fun x => hkeep x nofun) (by simp) (hmask nofun)
  | quirk x =>
    cases hp
    exact h.agent (by simp) hring (fun x => hkeep x nofun) (by simp) (hmask nofun)

end

end Inv

/-- Settles O13: a step waits, drops a choice that is not enabled, or performs one that is. -/
theorem everyStepKeepsTheInvariant : Obligations.EveryStepKeepsTheInvariant := by
  intro s t hi h
  rcases step_cases h with ⟨-, rfl⟩ | ⟨e, -, rfl | ⟨he, hp⟩⟩
  · exact hi
  · exact hi.popScript
  · exact hi.popScript.perform he hp

/-! ### The stops of a run -/

theorem onOk_answers {α : Type} {r : Except Fault α} {k : α → Result} (hr : ∃ x, r = .ok x)
    (hk : ∀ x, ∃ t, k x = .next t) : ∃ t, onOk r k = .next t := by
  obtain ⟨x, rfl⟩ := hr
  exact hk x

theorem State.clod_answers {s : State} {b : RingId} (hlt : (s.ring b).tail < s.cap b)
    (hread : (Memory.read (s.ring b).storage (s.ring b).tail).isSome = true) : ∃ v, s.clod b = .ok v := by
  obtain ⟨v, hv⟩ := Option.isSome_iff_exists.mp hread
  exact ⟨v, State.memRead_ok.mpr ⟨hlt, hv⟩⟩

theorem State.psto_answers {s : State} {b : RingId} (v : Byte) (hlt : (s.ring b).head < s.cap b) :
    ∃ t, s.psto b v = .ok t :=
  ⟨_, State.memWrite_ok.mpr ⟨hlt, rfl⟩⟩

theorem State.pushAtomic_answers {s : State} {b : RingId} (v : Byte) (hlt : (s.ring b).head < s.cap b) :
    ∃ r, s.pushAtomic b v = .ok r := by
  obtain ⟨u, hu⟩ := State.psto_answers v hlt
  unfold State.pushAtomic
  rw [hu]
  split <;> exact ⟨_, rfl⟩

theorem State.popAtomic_answers {s : State} {b : RingId} (hlt : (s.ring b).tail < s.cap b)
    (hread : s.emptyC b = false → (Memory.read (s.ring b).storage (s.ring b).tail).isSome = true) :
    ∃ r, s.popAtomic b = .ok r := by
  unfold State.popAtomic
  cases hempty : s.emptyC b with
  | true => exact ⟨_, rfl⟩
  | false =>
    obtain ⟨v, hv⟩ := State.clod_answers hlt (hread hempty)
    rw [hv]
    exact ⟨_, rfl⟩

theorem State.rxpStep_answers {s : State} (v : Byte) (hlt : s.rx.head < s.cfg.nRx) : ∃ t, s.rxpStep v = .next t :=
  onOk_answers (State.pushAtomic_answers (b := .rx) v hlt) fun _ => ⟨_, rfl⟩

theorem State.txcStep_answers {s : State} (hlt : s.tx.tail < s.cfg.nTx)
    (hread : s.emptyC .tx = false → (Memory.read s.tx.storage s.tx.tail).isSome = true) : ∃ t, s.txcStep = .next t := by
  refine onOk_answers (State.popAtomic_answers (b := .tx) hlt hread) fun r => ?_
  obtain ⟨_ | v, u⟩ := r <;> exact ⟨_, rfl⟩

/-- A micro-step of a port of the invariant: its index is one of its micro-program, a load finds a byte and a store a
slot. -/
theorem Inv.runMicro_answers {s : State} (h : Inv s) (hb : s.cur.busy = true) :
    (∃ t, s.runMicro = .next t) ∨ s.runMicro = .fault .spscViolation := by
  have hlast : s.cur.upc.toNat ≤ s.lastStep s.stepping := (h.port s.stepping).index_le hb
  unfold State.runMicro
  split
  · rename_i i hd
    have hrun : s.running s.stepping = some i := State.running_of_decode hb hd
    rw [State.lastStep_of_decode (x := s.stepping) hd] at hlast
    rcases ExecShape.exec i s with ⟨hend, -⟩ | ⟨hl, -, k, hr⟩ | ⟨-, -, v, k, hr⟩ | ⟨-, -, -, hr⟩
    · omega
    · have hdata : s.emptyC .rx = false :=
        (h.port s.stepping).pop_data ((State.stands_of_running hrun _).trans (popping_of_loading hl))
      rw [hr]
      exact .inl (onOk_answers (State.clod_answers h.rx_ok.tail_lt (h.rx_ok.read_tail hdata)) fun _ => ⟨_, rfl⟩)
    · rw [hr]
      exact .inl (onOk_answers (State.psto_answers v h.tx_ok.head_lt) fun _ => ⟨_, rfl⟩)
    · exact hr
  · rename_i hd
    have hzero : s.cur.upc = 0 := by
      have hd' : decode (s.port s.stepping).cmd = _ := hd
      have hle : s.cur.upc.toNat ≤ 0 := by simpa [State.lastStep, hd'] using hlast
      exact BitVec.eq_of_toNat_eq (Nat.le_zero.mp hle)
    exact .inl ⟨_, single_zero _ hzero⟩

/-- Settles O14: only a micro-step can stop, and only at the check of an end that the other port has open. -/
theorem onlyTheSpscFaultStopsARun : Obligations.OnlyTheSpscFaultStopsARun := by
  intro s hi
  have hstep : step s = s.advance := by simp [step, hi.cfg_wf]
  rw [hstep]
  rcases s.advance_cases with ⟨-, ha⟩ | ⟨e, -, -, ha⟩ | ⟨e, -, he, ha⟩ <;> rw [ha]
  · exact .inl ⟨_, rfl⟩
  · exact .inl ⟨_, rfl⟩
  have hp := hi.popScript
  cases e with
  | micro x =>
    obtain ⟨rfl, hb⟩ : s.popScript.stepping = x ∧ (s.popScript.port x).busy = true := by
      simpa only [State.enabled, Bool.and_eq_true, beq_iff_eq] using he
    exact hp.runMicro_answers hb
  | rxp v => exact .inl (State.rxpStep_answers v hp.rx_ok.head_lt)
  | txc => exact .inl (State.txcStep_answers hp.tx_ok.tail_lt hp.tx_ok.read_tail)
  | accept | aEnter | aLeave | syn | quirk => exact .inl ⟨_, rfl⟩

end Sys2Proof.Machine
end

section
/-! SUPPORT. What a ring holds as a list, and how much of it its consumer sees: what the operations of a ring do to both
(20_memory.md R75, R76; 40_ring.md R120, R123, R141). -/

namespace Sys2Proof.Machine

theorem distN_add_mod {n a k : Nat} (ha : a < n) (hk : k < n) : distN n a ((a + k) % n) = k := by
  have h := distN_add_right ha ha (k := k) (by rw [distN_self ha]; omega)
  rwa [distN_self ha, Nat.zero_add] at h

/-- How many of the bytes of ring `b` its consumer sees: those before its view of `head` (40_ring.md R123). -/
def State.visibleCount (s : State) (b : RingId) : Nat :=
  distN (s.cap b) (s.ring b).tail (s.headView b)

theorem State.visible_eq_take (s : State) (b : RingId) : s.visible b = (s.contents b).take (s.visibleCount b) := rfl

/-! ### What the contents depend on -/

section
variable {s t : State} {b : RingId}

theorem State.contents_congr_slots (hcfg : t.cfg = s.cfg) (hstore : (t.ring b).storage = (s.ring b).storage)
    (hhead : (t.ring b).head = (s.ring b).head) (htail : (t.ring b).tail = (s.ring b).tail) :
    t.contents b = s.contents b := by
  simp only [State.contents, Ring.contents, State.cap, hcfg, hstore, hhead, htail]

theorem State.contents_congr (hcfg : t.cfg = s.cfg) (hring : t.ring b = s.ring b) : t.contents b = s.contents b :=
  State.contents_congr_slots hcfg (by rw [hring]) (by rw [hring]) (by rw [hring])

theorem State.visibleCount_congr (hcfg : t.cfg = s.cfg) (hring : t.ring b = s.ring b) :
    t.visibleCount b = s.visibleCount b := by
  rw [State.visibleCount, State.visibleCount, State.headView_congr hcfg hring, hring, State.cap, State.cap, hcfg]

/-- A synchroniser moves no byte (41_sync.md R158). -/
theorem State.synStep_contents (s : State) (c : RingId) (p : PtrSel) (k : Nat) (b : RingId) :
    (s.synStep c p k).contents b = s.contents b :=
  have ⟨hhead, htail, hstore⟩ := s.synStep_pointers c p k b
  State.contents_congr_slots (by simp) hstore hhead htail

end

namespace RingInv

section
variable {s : State} {b : RingId}

/-- Every slot a ring holds has its byte (10_state.md R43). -/
theorem length_contents (h : RingInv s b) : (s.contents b).length = s.occ b := by
  have hall : ∀ k ∈ List.range (s.occ b),
      (Memory.read (s.ring b).storage (((s.ring b).tail + k) % s.cap b)).isSome = true := fun k hk =>
    h.written k (List.mem_range.mp hk)
  exact (List.filterMap_length_eq_length.mpr hall).trans List.length_range

/-! ### The operations on the contents -/

/-- PSTO writes a slot the ring does not hold (20_memory.md R72). -/
theorem stored_contents (h : RingInv s b) (v : Byte) : (s.stored b v).contents b = s.contents b := by
  unfold State.contents Ring.contents
  rw [s.stored_ring, State.stored_cap]
  refine List.filterMap_congr fun k hk => Memory.read_write_other _ v fun hslot => ?_
  have hk : k < s.occ b := List.mem_range.mp hk
  have hlap : s.occ b < s.cap b := distN_lt h.cap_pos
  have hdist := distN_add_mod h.tail_lt (hk.trans hlap)
  rw [hslot] at hdist
  have hocc : s.occ b = k := hdist
  omega

/-- PPUB puts the byte stored at `head` at the new end (40_ring.md R130). -/
theorem ppub_contents (h : RingInv s b) (hroom : s.fullP b = false) {v : Byte}
    (hbyte : Memory.read (s.ring b).storage (s.ring b).head = some v) :
    (s.ppub b).contents b = s.contents b ++ [v] := by
  have hocc : distN (s.cap b) (s.ring b).tail (incN (s.cap b) (s.ring b).head) =
      distN (s.cap b) (s.ring b).tail (s.ring b).head + 1 :=
    distN_inc_right h.tail_lt h.head_lt (h.incN_head_ne hroom h.tail_lt (by rw [h.seen_eq]; exact Nat.le_add_left _ _))
  unfold State.contents Ring.contents
  rw [s.ppub_ring, State.ppub_cap, hocc, List.range_succ, List.filterMap_append]
  simp [add_distN_mod h.tail_lt h.head_lt, hbyte]

/-- CREL takes the oldest byte away (40_ring.md R133). -/
theorem crel_contents (h : RingInv s b) (hdata : s.emptyC b = false) {v : Byte}
    (hbyte : Memory.read (s.ring b).storage (s.ring b).tail = some v) :
    s.contents b = v :: (s.crel b).contents b := by
  have hocc : distN (s.cap b) (s.ring b).tail (s.ring b).head =
      distN (s.cap b) (incN (s.cap b) (s.ring b).tail) (s.ring b).head + 1 :=
    (distN_inc_left h.tail_lt h.head_lt (h.tail_ne_head hdata)).symm
  have hnext (k : Nat) : (incN (s.cap b) (s.ring b).tail + k) % s.cap b = ((s.ring b).tail + (k + 1)) % s.cap b := by
    rw [incN_eq_mod h.tail_lt, Nat.mod_add_mod, Nat.add_assoc, Nat.add_comm 1 k]
  unfold State.contents Ring.contents
  rw [s.crel_ring, State.crel_cap, hocc, List.range_succ_eq_map, List.filterMap_cons, List.filterMap_map]
  simp [Nat.mod_eq_of_lt h.tail_lt, hbyte, hnext]

/-! ### What the consumer sees -/

theorem visibleCount_eq_zero (h : RingInv s b) : s.visibleCount b = 0 ↔ s.emptyC b = true := by
  rw [State.visibleCount, distN_eq_zero h.tail_lt h.headView_lt, State.emptyC, beq_iff_eq, eq_comm]

theorem visibleCount_pos (h : RingInv s b) : 0 < s.visibleCount b ↔ s.emptyC b = false := by
  rw [Nat.pos_iff_ne_zero, ne_eq, h.visibleCount_eq_zero, Bool.not_eq_true]

theorem visibleCount_le (h : RingInv s b) : s.visibleCount b ≤ s.occ b := by
  rw [h.occ_eq]
  exact Nat.le_add_right _ _

theorem length_visible (h : RingInv s b) : (s.visible b).length = s.visibleCount b := by
  rw [s.visible_eq_take, List.length_take, h.length_contents, min_eq_left h.visibleCount_le]

/-- A publish hides nothing the consumer sees. -/
theorem ppub_visibleCount (h : RingInv s b) (hroom : s.fullP b = false) :
    s.visibleCount b ≤ (s.ppub b).visibleCount b := by
  unfold State.visibleCount
  rw [s.ppub_ring, State.ppub_cap]
  cases hl : s.cfg.sync.lagged with
  | true => rw [s.ppub_headView b hl]
  | false =>
    obtain ⟨hhv, -⟩ := State.views_direct hl b
    obtain ⟨hhv', -⟩ := State.views_direct (s := s.ppub b) (by simpa using hl) b
    have hocc := distN_inc_right h.tail_lt h.head_lt
      (h.incN_head_ne hroom h.tail_lt (by rw [h.seen_eq]; exact Nat.le_add_left _ _))
    rw [hhv, hhv', s.ppub_ring]
    dsimp only
    omega

/-- A release takes away one byte of those the consumer sees. -/
theorem crel_visibleCount (h : RingInv s b) (hdata : s.emptyC b = false) :
    s.visibleCount b = (s.crel b).visibleCount b + 1 := by
  unfold State.visibleCount
  rw [s.crel_headView, s.crel_ring, State.crel_cap]
  exact (distN_inc_left h.tail_lt h.headView_lt (State.emptyC_eq_false.mp hdata).symm).symm

/-- `SYN(b.head)` shows the consumer as many more bytes as it moves the view (41_sync.md R158). -/
theorem synStep_head_visibleCount (h : RingInv s b) (hl : s.cfg.sync.lagged = true) {k : Nat} (hk : k ≤ s.lag b .head) :
    (s.synStep b .head k).visibleCount b = s.visibleCount b + k := by
  obtain ⟨hhv, -⟩ := State.views_lagged hl b
  obtain ⟨hhv', -⟩ := State.views_lagged (s := s.synStep b .head k) (by simpa using hl) b
  have hlag : k ≤ distN (s.cap b) (s.ring b).headC (s.ring b).head := hk
  have hocc := h.occ_eq
  have hlap : s.occ b < s.cap b := distN_lt h.cap_pos
  unfold State.visibleCount
  rw [hhv] at hocc ⊢
  rw [hhv', s.synStep_ring, State.synStep_cap]
  simp only [Ring.setViewReg, Ring.viewReg]
  exact distN_add_right h.tail_lt h.headC_lt (by omega)

/-- While the consumer does not see all its ring holds, `SYN(b.head)` is enabled (60_exceptions.md R247). -/
theorem syn_head_enabled (h : RingInv s b) (hlt : s.visibleCount b < s.occ b) : s.enabled (.syn b .head 1) = true := by
  have hne : s.headView b ≠ (s.ring b).head := fun hc => by
    rw [State.visibleCount, hc] at hlt
    exact lt_irrefl _ hlt
  have hlag : s.cfg.sync.lagged = true := by
    by_contra hl
    exact hne (State.views_direct (by simpa using hl) b).1
  rw [(State.views_lagged hlag b).1] at hne
  have hpos : 1 ≤ s.lag b .head := Nat.one_le_iff_ne_zero.mpr fun hz => hne ((distN_eq_zero h.headC_lt h.head_lt).mp hz)
  simpa [State.enabled, hlag, Ring.viewReg, Ring.pointer, hne] using hpos

end

end RingInv

/-- `SYN(b.tail)` leaves what the consumer sees. -/
theorem State.synStep_tail_visibleCount (s : State) (b : RingId) (k : Nat) :
    (s.synStep b .tail k).visibleCount b = s.visibleCount b := by
  simp [State.visibleCount, State.headView, s.synStep_ring, Ring.setViewReg]

end Sys2Proof.Machine
end

section
/-! SUPPORT. The two rings as queues: what every step that is taken does to the bytes of a ring, to its wire trace and
to what its consumer sees (20_memory.md R75, R76; 40_ring.md R141; 60_exceptions.md R236, R238). -/

namespace Sys2Proof.Machine

/-! ### A step that is taken -/

/-- The step `e` can be taken in `s` and leads to `t`, for some list of choices still to come. -/
def State.Takes (s : State) (e : Event) (t : State) : Prop :=
  s.enabled e = true ∧ ∃ l, ({ s with script := l }).perform e = .next t

/-- Whether a step is enabled does not depend on the choices to come (60_exceptions.md R247). -/
theorem State.setScript_enabled (s : State) (l : List Event) (e : Event) :
    ({ s with script := l }).enabled e = s.enabled e := by
  cases e with
  | accept x | micro x => cases x <;> rfl
  | syn b => cases b <;> rfl
  | aEnter | aLeave | rxp | txc | quirk => rfl

theorem State.of_enabled_micro {s : State} {x : Port} (h : s.enabled (.micro x) = true) :
    s.stepping = x ∧ (s.port x).busy = true := by
  simpa [State.enabled] using h

theorem State.of_enabled_syn {s : State} {b : RingId} {p : PtrSel} {k : Nat} (h : s.enabled (.syn b p k) = true) :
    s.cfg.sync.lagged = true ∧ 1 ≤ k ∧ k ≤ s.lag b p := by
  simp only [State.enabled, Bool.and_eq_true, decide_eq_true_eq] at h
  obtain ⟨⟨⟨hlag, -⟩, hk⟩, hle⟩ := h
  exact ⟨hlag, hk, hle⟩

/-- A step of the machine takes the step chosen, or only reads a choice that is not enabled. -/
theorem step_rests_or_takes {s t : State} (h : step s = .next t) :
    ((∃ l, t = { s with script := l }) ∧ ∀ e, s.nextEvent = some e → s.enabled e = false) ∨
    ∃ e, s.nextEvent = some e ∧ s.Takes e t := by
  obtain ⟨-, hadv⟩ := step_next h
  rcases s.advance_cases with ⟨hnone, hs⟩ | ⟨e, hev, he, hs⟩ | ⟨e, hev, he, hs⟩ <;> rw [hs] at hadv
  · cases hadv
    exact .inl ⟨⟨s.script, rfl⟩, fun e hev => by rw [hnone] at hev; cases hev⟩
  · cases hadv
    refine .inl ⟨⟨s.script.tail, rfl⟩, fun e' hev' => ?_⟩
    cases hev.symm.trans hev'
    exact he
  · exact .inr ⟨e, hev, he, _, hadv⟩

/-- The invariant does not speak of the choices to come. -/
theorem Inv.setScript {s : State} (h : Inv s) (l : List Event) : Inv { s with script := l } :=
  h.of_latches rfl (fun b => (h.ring b).congr rfl (by cases b <;> rfl))
    (fun x => (h.port x).congr (State.port_congr rfl rfl x) rfl rfl rfl) rfl rfl h.session h.bracket

theorem Inv.takes {s t : State} {e : Event} (h : Inv s) (ht : s.Takes e t) : Inv t :=
  let ⟨he, l, hp⟩ := ht
  (h.setScript l).perform he hp

/-! ### A queue that a step leaves alone -/

theorem SameShared.ring {s t : State} (h : SameShared s t) (b : RingId) : t.ring b = s.ring b := by
  cases b
  · exact h.rx
  · exact h.tx

/-- From `s` to `t` ring `b` keeps its bytes, its `tail` and what its consumer sees of it. -/
structure QueueKept (s t : State) (b : RingId) : Prop where
  contents : t.contents b = s.contents b
  tail : (t.ring b).tail = (s.ring b).tail
  visibleCount : t.visibleCount b = s.visibleCount b

namespace QueueKept

variable {s t u : State} {b : RingId}

theorem of_ring (hcfg : t.cfg = s.cfg) (hring : t.ring b = s.ring b) : QueueKept s t b :=
  ⟨State.contents_congr hcfg hring, by rw [hring], State.visibleCount_congr hcfg hring⟩

theorem trans (h : QueueKept s t b) (k : QueueKept t u b) : QueueKept s u b :=
  ⟨k.contents.trans h.contents, k.tail.trans h.tail, k.visibleCount.trans h.visibleCount⟩

theorem of_same (h : SameShared s t) (b : RingId) : QueueKept s t b :=
  of_ring h.cfg (h.ring b)

theorem stored (h : RingInv s b) (v : Byte) : QueueKept s (s.stored b v) b :=
  ⟨h.stored_contents v, by rw [s.stored_ring], by simp [State.visibleCount, s.stored_ring]⟩

/-- A synchroniser that does not carry the `head` of this ring. -/
theorem synStep {c : RingId} {p : PtrSel} (k : Nat) (hne : ¬(c = b ∧ p = .head)) : QueueKept s (s.synStep c p k) b := by
  by_cases hc : b = c
  · subst hc
    cases p with
    | head => exact absurd ⟨rfl, rfl⟩ hne
    | tail => exact ⟨s.synStep_contents .., (s.synStep_pointers ..).2.1, s.synStep_tail_visibleCount ..⟩
  · exact of_ring (by simp) (State.setRing_ring_of_ne _ _ hc)

end QueueKept

/-! ### The micro-steps -/

theorem publishes_iff {c v : Byte} {i : Instr} {k : Nat} :
    publishes c i k = some v ↔ (i = .txpush v ∧ k = 2) ∨ ((∃ d, i = .wr d) ∧ k = 5 ∧ v = c) := by
  cases i <;> simp [publishes, and_comm, eq_comm]

/-- At its publish a port publishes, and does nothing else outside its latches (40_ring.md R135, 42_channel.md R174). -/
theorem State.runMicro_publish {s t : State} {v : Byte} (hpub : s.publishByte s.stepping = some v)
    (h : s.runMicro = .next t) : SameShared (s.ppub .tx) t := by
  obtain ⟨i, hrun, -⟩ := State.stands_iff.mp (State.stands_of_publishByte hpub)
  have hdec : decode s.cur.cmd = .ok i := (State.running_busy hrun).2
  have hexec : exec i s = .next t := by simpa only [State.runMicro, hdec] using h
  rw [State.publishByte_of_running hrun, publishes_iff] at hpub
  rcases hpub with ⟨rfl, hk⟩ | ⟨⟨d, rfl⟩, hk, -⟩
  · have hk' : s.cur.upc.toNat = 2 := hk
    simp only [exec, execTxpush, hk'] at hexec
    cases hexec
    exact .respond _ _
  · have hk' : s.cur.upc.toNat = 5 := hk
    simp only [exec, execWr, hk'] at hexec
    cases hexec
    exact .goto _ _

/-- A micro-step that is no publish leaves the bytes of `TX`. -/
theorem Inv.micro_keeps_tx {s u : State} (h : Inv s) (hu : MicroEffect s u) (hpub : s.publishByte s.stepping = none) :
    QueueKept s u .tx := by
  cases hu with
  | store v => exact .stored h.tx_ok v
  | publish hsome => rw [hpub] at hsome; cases hsome
  | release => exact .of_ring (by simp) rfl
  | none | enter | exit | kick | setCtrl | filter | clearCancel => exact .of_ring (by simp) (by simp [State.ring])

/-- A micro-step is a release of `RX` or leaves its bytes. -/
theorem MicroEffect.keeps_rx {s u : State} (hu : MicroEffect s u) :
    (u = s.crel .rx ∧ s.stands s.stepping releasing = true) ∨ QueueKept s u .rx := by
  cases hu with
  | release hrel => exact .inl ⟨rfl, hrel⟩
  | store | publish => exact .inr (.of_ring (by simp [State.stored]) rfl)
  | none | enter | exit | kick | setCtrl | filter | clearCancel =>
    exact .inr (.of_ring (by simp) (by simp [State.ring]))

/-! ### The agents of the wire -/

theorem State.setTxie_of_set {s : State} (h : s.ctrl.txie = true) :
    { s with ctrl := { s.ctrl with txie := true } } = s := by
  rw [← h]

/-- `TXC` with its enable set: it stops an empty ring, or sends the byte at `tail` (60_exceptions.md R238). -/
theorem State.txcStep_next {s t : State} (hie : s.ctrl.txie = true) (h : s.txcStep = .next t) :
    (s.emptyC .tx = true ∧ t = { s with ctrl := { s.ctrl with txie := false } }) ∨
    ∃ v, s.emptyC .tx = false ∧ Memory.read s.tx.storage s.tx.tail = some v ∧
      t = { s.crel .tx with txTrace := s.txTrace ++ [v] } := by
  unfold State.txcStep at h
  simp only [State.setTxie_of_set hie] at h
  obtain ⟨⟨r, u⟩, hpop, ht⟩ := onOk_next h
  rcases State.popAtomic_ok hpop with ⟨hempty, rfl, rfl⟩ | ⟨v, hdata, rfl, -, hread, rfl⟩ <;> cases ht
  · exact .inl ⟨hempty, rfl⟩
  · exact .inr ⟨v, hdata, hread, by rw [State.crel_txTrace]⟩

/-- `RXP` with its enable set: it drops its byte at a full ring, or pushes it (60_exceptions.md R236). -/
theorem State.rxpStep_next {s t : State} {v : Byte} (hie : s.ctrl.rxie = true) (h : s.rxpStep v = .next t) :
    t.rxTrace = s.rxTrace ++ [v] ∧ t.cfg = s.cfg ∧
    ((s.fullP .rx = true ∧ t.rx = s.rx) ∨ (s.fullP .rx = false ∧ t.rx = ((s.stored .rx v).ppub .rx).rx)) := by
  have hctrl : { s.ctrl with rxie := true } = s.ctrl := by rw [← hie]
  unfold State.rxpStep at h
  simp only [hctrl] at h
  obtain ⟨⟨r, u⟩, hpush, ht⟩ := onOk_next h
  rcases State.pushAtomic_ok hpush with ⟨hfull, -, rfl⟩ | ⟨hroom, -, -, rfl⟩ <;> cases ht
  · exact ⟨rfl, rfl, .inl ⟨hfull, rfl⟩⟩
  · exact ⟨rfl, rfl, .inr ⟨hroom, rfl⟩⟩

/-! ### `TX` -/

/-- What a step that is taken does to `TX`, to the transmit trace and to what `TXC` sees. -/
inductive TxEffect (s t : State) : Event → Prop
  | publish (v : Byte) (hpub : s.publishByte s.stepping = some v) (hbytes : t.contents .tx = s.contents .tx ++ [v])
      (htrace : t.txTrace = s.txTrace) (hseen : s.visibleCount .tx ≤ t.visibleCount .tx) :
      TxEffect s t (.micro s.stepping)
  | send (v : Byte) (hbytes : s.contents .tx = v :: t.contents .tx) (htrace : t.txTrace = s.txTrace ++ [v]) :
      TxEffect s t .txc
  | syn (k : Nat) (hk : 1 ≤ k) (hbytes : t.contents .tx = s.contents .tx) (htrace : t.txTrace = s.txTrace)
      (hseen : t.visibleCount .tx = s.visibleCount .tx + k) : TxEffect s t (.syn .tx .head k)
  | still (e : Event) (hpub : ∀ x, e = .micro x → s.publishByte x = none) (hstop : e = .txc → s.emptyC .tx = true)
      (hsyn : ∀ k, e ≠ .syn .tx .head k) (hkept : QueueKept s t .tx) (htrace : t.txTrace = s.txTrace) : TxEffect s t e

/-- An agent other than `TXC` and `SYN(TX.head)`. -/
theorem TxEffect.idle {s t : State} {e : Event} (hmicro : ∀ x, e ≠ .micro x) (htxc : e ≠ .txc)
    (hsyn : ∀ k, e ≠ .syn .tx .head k) (hkept : QueueKept s t .tx) (htrace : t.txTrace = s.txTrace) : TxEffect s t e :=
  .still e (fun x hx => absurd hx (hmicro x)) (fun hx => absurd hx htxc) hsyn hkept htrace

theorem State.rxpStep_tx {s t : State} {v : Byte} (h : s.rxpStep v = .next t) :
    t.tx = s.tx ∧ t.txTrace = s.txTrace := by
  obtain ⟨⟨r, u⟩, hpush, ht⟩ := onOk_next h
  cases ht
  rcases State.pushAtomic_ok hpush with ⟨-, -, rfl⟩ | ⟨-, -, -, rfl⟩ <;> exact ⟨rfl, rfl⟩

theorem Inv.perform_txEffect {s t : State} {e : Event} (h : Inv s) (he : s.enabled e = true)
    (hp : s.perform e = .next t) : TxEffect s t e := by
  cases e with
  | accept x w => cases hp; exact .idle nofun nofun nofun (.of_same (.setPort s _ _) _) (by simp)
  | micro x =>
    obtain ⟨rfl, hb⟩ := State.of_enabled_micro he
    have htrace : t.txTrace = s.txTrace := (MicroFrame.runMicro hp).txTrace
    cases hpub : s.publishByte s.stepping with
    | some v =>
      have hsame : SameShared (s.ppub .tx) t := State.runMicro_publish hpub hp
      have hroom := (h.port s.stepping).push_room (State.stands_of_publishByte hpub)
      have hkept := QueueKept.of_same hsame .tx
      refine .publish v hpub ?_ htrace ?_
      · rw [hkept.contents, h.tx_ok.ppub_contents hroom ((h.port s.stepping).stored v hpub)]
      · rw [hkept.visibleCount]; exact h.tx_ok.ppub_visibleCount hroom
    | none =>
      obtain ⟨u, hu, hut⟩ := MicroEffect.runMicro hb hp
      refine .still _ (fun x hx => ?_) nofun nofun ((h.micro_keeps_tx hu hpub).trans (.of_same hut _)) htrace
      cases hx
      exact hpub
  | aEnter => cases hp; exact .idle nofun nofun nofun (.of_ring rfl rfl) rfl
  | aLeave => cases hp; exact .idle nofun nofun nofun (.of_ring rfl rfl) rfl
  | rxp v =>
    obtain ⟨hcfg, -, -⟩ := State.rxpStep_latches hp
    obtain ⟨htx, htrace⟩ := State.rxpStep_tx hp
    exact .idle nofun nofun nofun (.of_ring hcfg htx) htrace
  | txc =>
    have hie : s.ctrl.txie = true := by
      simp only [State.enabled, Bool.and_eq_true] at he
      exact he.1.2
    rcases State.txcStep_next hie hp with ⟨hempty, rfl⟩ | ⟨v, hdata, hread, rfl⟩
    · exact .still _ nofun (fun _ => hempty) nofun (.of_ring rfl rfl) rfl
    · exact .send v (h.tx_ok.crel_contents hdata hread) rfl
  | syn b p k =>
    obtain ⟨hlag, hk, hle⟩ := State.of_enabled_syn he
    cases hp
    by_cases hhead : b = .tx ∧ p = .head
    · obtain ⟨rfl, rfl⟩ := hhead
      exact .syn k hk (s.synStep_contents ..) (by simp) (h.tx_ok.synStep_head_visibleCount hlag hle)
    · exact .idle nofun nofun (fun j hj => by cases hj; exact hhead ⟨rfl, rfl⟩) (.synStep k hhead) (by simp)
  | quirk x => cases hp; exact .idle nofun nofun nofun (.of_ring (by simp) (by simp [State.ring])) (by simp)

theorem Inv.txEffect {s t : State} {e : Event} (h : Inv s) (ht : s.Takes e t) : TxEffect s t e := by
  obtain ⟨he, l, hp⟩ := ht
  cases (h.setScript l).perform_txEffect he hp with
  | publish v hpub hbytes htrace hseen => exact .publish v hpub hbytes htrace hseen
  | send v hbytes htrace => exact .send v hbytes htrace
  | syn k hk hbytes htrace hseen => exact .syn k hk hbytes htrace hseen
  | still _ hpub hstop hsyn hkept htrace => exact .still _ hpub hstop hsyn ⟨hkept.1, hkept.2, hkept.3⟩ htrace

/-! ### `RX` -/

/-- What a step that is taken does to `RX`, to the receive wire trace and to what the processor's side sees. -/
inductive RxEffect (s t : State) : Event → Prop
  | receive (v : Byte) (hroom : s.fullP .rx = false) (hbytes : t.contents .rx = s.contents .rx ++ [v])
      (htail : t.rx.tail = s.rx.tail) (hseen : s.visibleCount .rx ≤ t.visibleCount .rx)
      (htrace : t.rxTrace = s.rxTrace ++ [v]) : RxEffect s t (.rxp v)
  | drop (v : Byte) (hfull : s.fullP .rx = true) (hkept : QueueKept s t .rx) (htrace : t.rxTrace = s.rxTrace ++ [v]) :
      RxEffect s t (.rxp v)
  | release (hrel : s.stands s.stepping releasing = true) (hbytes : s.contents .rx = s.cur.t :: t.contents .rx)
      (htail : t.rx.tail ≠ s.rx.tail) (hseen : s.visibleCount .rx = t.visibleCount .rx + 1)
      (htrace : t.rxTrace = s.rxTrace) : RxEffect s t (.micro s.stepping)
  | syn (k : Nat) (hk : 1 ≤ k) (hbytes : t.contents .rx = s.contents .rx) (htail : t.rx.tail = s.rx.tail)
      (hseen : t.visibleCount .rx = s.visibleCount .rx + k) (htrace : t.rxTrace = s.rxTrace) :
      RxEffect s t (.syn .rx .head k)
  | still (e : Event) (hrxp : ∀ v, e ≠ .rxp v) (hsyn : ∀ k, e ≠ .syn .rx .head k) (hkept : QueueKept s t .rx)
      (htrace : t.rxTrace = s.rxTrace) : RxEffect s t e

theorem State.txcStep_rx {s t : State} (h : s.txcStep = .next t) : t.rx = s.rx ∧ t.rxTrace = s.rxTrace := by
  obtain ⟨⟨r, u⟩, hpop, ht⟩ := onOk_next h
  rcases State.popAtomic_ok hpop with ⟨-, rfl, rfl⟩ | ⟨v, -, rfl, -, -, rfl⟩ <;> cases ht <;> exact ⟨rfl, rfl⟩

/-- A release of the stepping port takes the byte it has loaded. -/
theorem Inv.release_rx {s t : State} (h : Inv s) (hrel : s.stands s.stepping releasing = true)
    (hsame : SameShared (s.crel .rx) t) (htrace : t.rxTrace = s.rxTrace) : RxEffect s t (.micro s.stepping) := by
  have hdata := (h.port s.stepping).pop_data (State.stands_imp (fun _ _ => popping_of_releasing) hrel)
  have hkept := QueueKept.of_same hsame .rx
  refine .release hrel ?_ (fun hc => ?_) ?_ htrace
  · rw [hkept.contents]; exact h.rx_ok.crel_contents hdata ((h.port s.stepping).loaded hrel)
  · exact incN_ne_self (Config.two_le_cap h.cfg_wf .rx) (hkept.tail.symm.trans hc)
  · rw [hkept.visibleCount]; exact h.rx_ok.crel_visibleCount hdata

/-- The push of `RXP` puts its byte at the new end. -/
theorem Inv.receive_rx {s t : State} {v : Byte} (h : Inv s) (hroom : s.fullP .rx = false) (hcfg : t.cfg = s.cfg)
    (hrx : t.rx = ((s.stored .rx v).ppub .rx).rx) (htrace : t.rxTrace = s.rxTrace ++ [v]) : RxEffect s t (.rxp v) := by
  have hstored := h.rx_ok.stored v
  have hroom' : (s.stored .rx v).fullP .rx = false := by simpa using hroom
  have hread : Memory.read ((s.stored .rx v).ring .rx).storage ((s.stored .rx v).ring .rx).head = some v := by
    simp [s.stored_ring]
  have hkept : QueueKept ((s.stored .rx v).ppub .rx) t .rx := .of_ring hcfg hrx
  have hput := QueueKept.stored h.rx_ok v
  refine .receive v hroom ?_ hkept.tail ?_ htrace
  · rw [hkept.contents, hstored.ppub_contents hroom' hread, hput.contents]
  · rw [hkept.visibleCount, ← hput.visibleCount]; exact hstored.ppub_visibleCount hroom'

theorem Inv.perform_rxEffect {s t : State} {e : Event} (h : Inv s) (he : s.enabled e = true)
    (hp : s.perform e = .next t) : RxEffect s t e := by
  cases e with
  | accept x w => cases hp; exact .still _ nofun nofun (.of_same (.setPort s _ _) _) (by simp)
  | micro x =>
    obtain ⟨rfl, hb⟩ := State.of_enabled_micro he
    have htrace : t.rxTrace = s.rxTrace := (MicroFrame.runMicro hp).rxTrace
    obtain ⟨u, hu, hut⟩ := MicroEffect.runMicro hb hp
    rcases hu.keeps_rx with ⟨rfl, hrel⟩ | hkept
    · exact h.release_rx hrel hut htrace
    · exact .still _ nofun nofun (hkept.trans (.of_same hut _)) htrace
  | aEnter => cases hp; exact .still _ nofun nofun (.of_ring rfl rfl) rfl
  | aLeave => cases hp; exact .still _ nofun nofun (.of_ring rfl rfl) rfl
  | rxp v =>
    have hie : s.ctrl.rxie = true := by
      simp only [State.enabled, Bool.and_eq_true] at he
      exact he.2
    obtain ⟨htrace, hcfg, ⟨hfull, hrx⟩ | ⟨hroom, hrx⟩⟩ := State.rxpStep_next hie hp
    · exact .drop v hfull (.of_ring hcfg hrx) htrace
    · exact h.receive_rx hroom hcfg hrx htrace
  | txc =>
    obtain ⟨hcfg, -, -⟩ := State.txcStep_latches hp
    obtain ⟨hrx, htrace⟩ := State.txcStep_rx hp
    exact .still _ nofun nofun (.of_ring hcfg hrx) htrace
  | syn b p k =>
    obtain ⟨hlag, hk, hle⟩ := State.of_enabled_syn he
    cases hp
    by_cases hhead : b = .rx ∧ p = .head
    · obtain ⟨rfl, rfl⟩ := hhead
      exact .syn k hk (s.synStep_contents ..) (s.synStep_pointers _ _ _ .rx).2.1
        (h.rx_ok.synStep_head_visibleCount hlag hle) (by simp)
    · exact .still _ nofun (fun j hj => by cases hj; exact hhead ⟨rfl, rfl⟩) (.synStep k hhead) (by simp)
  | quirk x => cases hp; exact .still _ nofun nofun (.of_ring (by simp) (by simp [State.ring])) (by simp)

theorem Inv.rxEffect {s t : State} {e : Event} (h : Inv s) (ht : s.Takes e t) : RxEffect s t e := by
  obtain ⟨he, l, hp⟩ := ht
  cases (h.setScript l).perform_rxEffect he hp with
  | receive v hroom hbytes htail hseen htrace => exact .receive v hroom hbytes htail hseen htrace
  | drop v hfull hkept htrace => exact .drop v hfull ⟨hkept.1, hkept.2, hkept.3⟩ htrace
  | release hrel hbytes htail hseen htrace => exact .release hrel hbytes htail hseen htrace
  | syn k hk hbytes htail hseen htrace => exact .syn k hk hbytes htail hseen htrace
  | still _ hrxp hsyn hkept htrace => exact .still _ hrxp hsyn ⟨hkept.1, hkept.2, hkept.3⟩ htrace

end Sys2Proof.Machine
end

section
/-! PROOFS. The rings as queues between the ports and the wire (20_memory.md R75, R76; 40_ring.md R141). -/

namespace Sys2Proof.Machine

/-- Settles O17: a publish adds its byte at the new end of `TX`, a send moves the oldest byte from `TX` to the trace,
and every other step leaves both. -/
theorem transmitRingIsAQueue : Obligations.TransmitRingIsAQueue := by
  intro s t hi h
  rcases step_rests_or_takes h with ⟨⟨l, rfl⟩, hoff⟩ | ⟨e, hev, ht⟩
  · refine .inr ⟨fun x hx hstep => ?_, rfl⟩
    have hidle : (s.port x).busy = false := by simpa [State.enabled, hstep] using hoff _ hx
    simp [State.publishByte, State.running, hidle]
  cases hi.txEffect ht with
  | publish v hpub hbytes htrace =>
    exact .inl ⟨_, v, hev, rfl, hpub, by rw [hbytes, htrace, List.append_assoc]⟩
  | send v hbytes htrace =>
    exact .inr ⟨fun x hx => (nomatch hev.symm.trans hx),
      by rw [hbytes, htrace, List.append_assoc, List.singleton_append]⟩
  | syn k _ hbytes htrace =>
    exact .inr ⟨fun x hx => (nomatch hev.symm.trans hx), by rw [hbytes, htrace]⟩
  | still _ hpub _ _ hkept htrace =>
    exact .inr ⟨fun x hx _ => hpub x (by rw [hev] at hx; exact Option.some.inj hx), by rw [hkept.contents, htrace]⟩

/-- Settles O18: a reception adds its byte at the new end of `RX`, a release takes the oldest one away, and every other
step leaves the ring. -/
theorem receiveRingIsAQueue : Obligations.ReceiveRingIsAQueue := by
  intro s t hi h
  rcases step_rests_or_takes h with ⟨⟨l, rfl⟩, -⟩ | ⟨e, hev, ht⟩
  · exact .inr (.inr ⟨rfl, rfl⟩)
  cases hi.rxEffect ht with
  | receive v hroom hbytes _ _ htrace => exact .inl ⟨v, hev, ht.1, htrace, by simp [hroom, hbytes]⟩
  | drop v hfull hkept htrace => exact .inl ⟨v, hev, ht.1, htrace, by simp [hfull, hkept.contents]⟩
  | release hrel hbytes _ _ htrace => exact .inr (.inl ⟨_, hev, rfl, hrel, htrace, hbytes⟩)
  | syn k _ hbytes _ _ htrace => exact .inr (.inr ⟨htrace, hbytes⟩)
  | still _ _ _ hkept htrace => exact .inr (.inr ⟨htrace, hkept.contents⟩)

end Sys2Proof.Machine
end

section
/-! PROOFS. The bounded drain of `TX` (70_reset_and_hazards.md R286): one `TXC` step, and one for each byte of `TX`. -/

namespace Sys2Proof.Machine

/-- The state after `TXC` has sent `v`, the choices `rest` still to come. -/
def State.sent (s : State) (v : Byte) (rest : List Event) : State :=
  { s.crel .tx with txTrace := s.txTrace ++ [v], script := rest }

/-- A view that has caught up shows all the ring holds. -/
theorem State.visibleCount_eq_occ {s : State} {b : RingId} (h : s.headView b = (s.ring b).head) :
    s.visibleCount b = s.occ b := by
  rw [State.visibleCount, h, State.occ]

/-- A chosen `TXC` step, enabled on a ring whose oldest byte it sees, sends that byte. -/
theorem Inv.step_txc {s : State} {rest : List Event} (h : Inv s) (hs : s.script = .txc :: rest)
    (hidle : s.insvc = .none) (hmask : s.ctrl.imask = false) (hie : s.ctrl.txie = true) (hdata : s.emptyC .tx = false) :
    ∃ v, step s = .next (s.sent v rest) ∧ s.contents .tx = v :: (s.sent v rest).contents .tx := by
  have hen : ({ s with script := rest }).enabled .txc = true := by
    rw [State.setScript_enabled]
    simp [State.enabled, State.interruptible, hidle, hmask, hie, hdata]
  obtain ⟨t, ht⟩ := State.txcStep_answers (s := { s with script := rest }) h.tx_ok.tail_lt h.tx_ok.read_tail
  have hstep : step s = .next t := by
    rw [step_of_script h.cfg_wf hs, State.take, if_pos hen]
    exact ht
  rcases State.txcStep_next (s := { s with script := rest }) hie ht with ⟨hempty, -⟩ | ⟨v, -, hread, rfl⟩
  · exact Bool.noConfusion (hdata.symm.trans hempty)
  · exact ⟨v, hstep, h.tx_ok.crel_contents hdata hread⟩

theorem core_run_succ {s t : State} (h : step s = .next t) (k : Nat) :
    Host.Core.run core (k + 1) s = Host.Core.run core k t := by
  have hcore : core.step s = .next t := h
  simp only [Host.Core.run, hcore]

/-- Settles O21, by induction on the number of bytes: each `TXC` step sends the oldest and leaves what the
rest needs. -/
theorem drainSendsTheContents : Obligations.DrainSendsTheContents := by
  intro s rest hi hidle hmask hie hview hs
  generalize hocc : s.occ .tx = n at hs ⊢
  induction n generalizing s with
  | zero =>
    have hnil : s.contents .tx = [] := List.length_eq_zero_iff.mp (hi.tx_ok.length_contents.trans hocc)
    exact ⟨s, rfl, by simp [hnil], (distN_eq_zero hi.tx_ok.tail_lt hi.tx_ok.head_lt).mp hocc, rfl, hs, rfl, rfl⟩
  | succ n ih =>
    have hdata : s.emptyC .tx = false := by
      rw [← hi.tx_ok.visibleCount_pos, State.visibleCount_eq_occ hview, hocc]
      exact Nat.succ_pos n
    obtain ⟨later, hlater⟩ : ∃ l, l = List.replicate n .txc ++ rest := ⟨_, rfl⟩
    rw [List.replicate_succ, List.cons_append, ← hlater] at hs
    obtain ⟨v, hstep, hbytes⟩ := hi.step_txc hs hidle hmask hie hdata
    have hi' : Inv (s.sent v later) := everyStepKeepsTheInvariant _ _ hi hstep
    have hocc' : (s.sent v later).occ .tx = n := by
      have hlen := congrArg List.length hbytes
      rw [List.length_cons, hi.tx_ok.length_contents, hi'.tx_ok.length_contents, hocc] at hlen
      omega
    obtain ⟨t, hrun, htrace, hempty, hhead, hscript, hctrl, hrx⟩ :=
      ih _ hi' hidle hmask hie ((s.crel_headView .tx).trans hview) hocc' hlater
    refine ⟨t, (core_run_succ hstep n).trans hrun, ?_, hempty, hhead, hscript, hctrl, hrx⟩
    rw [htrace, hbytes]
    simp [State.sent]

end Sys2Proof.Machine
end

section
/-! SUPPORT. Executions (70_reset_and_hazards.md R286): each step of one is taken or rests, and keeps the invariant. -/

namespace Sys2Proof.Machine

namespace Execution

variable {run : Nat → State} {ev : Nat → Option Event}

theorem rests (h : Execution run ev) {n : Nat} (hev : ev n = none) : run (n + 1) = run n := by
  have hn := h n
  rwa [hev] at hn

theorem takes (h : Execution run ev) {n : Nat} {e : Event} (hev : ev n = some e) : (run n).Takes e (run (n + 1)) := by
  have hn := h n
  rw [hev] at hn
  obtain ⟨he, hstep⟩ := hn
  obtain ⟨hwf, -⟩ := step_next hstep
  rw [step_of_script hwf rfl, State.take, if_pos (((run n).setScript_enabled [] e).trans he)] at hstep
  exact ⟨he, [], hstep⟩

theorem inv (h : Execution run ev) (h0 : Inv (run 0)) (n : Nat) : Inv (run n) := by
  induction n with
  | zero => exact h0
  | succ n ih =>
    cases hev : ev n with
    | none => rw [h.rests hev]; exact ih
    | some e => exact ih.takes (h.takes hev)

/-- A relation that every step taken establishes holds from each state to every later one. -/
theorem rel_of_le (h : Execution run ev) (h0 : Inv (run 0)) {α : Type} {f : State → α} {r : α → α → Prop} [Std.Refl r]
    [IsTrans α r] (hr : ∀ s t e, Inv s → s.Takes e t → r (f s) (f t)) {m n : Nat} (hmn : m ≤ n) :
    r (f (run m)) (f (run n)) := by
  refine Nat.rel_of_forall_rel_succ_of_le r (f := fun n => f (run n)) (fun n => ?_) hmn
  cases hev : ev n with
  | none => rw [h.rests hev]; exact refl_of r _
  | some e => exact hr _ _ e (h.inv h0 n) (h.takes hev)

end Execution

/-- A measure that grows again and again while it is below a bound reaches the bound. -/
theorem exists_ge_of_grows {μ : Nat → Nat} {bound n : Nat} (h : ∀ m ≥ n, μ m < bound → ∃ j ≥ m, μ m < μ j) :
    ∃ m ≥ n, bound ≤ μ m := by
  have reach (d : Nat) : ∀ m ≥ n, bound - μ m ≤ d → ∃ j ≥ n, bound ≤ μ j := by
    induction d with
    | zero => exact fun m hm hd => ⟨m, hm, by omega⟩
    | succ d ih =>
      intro m hm hd
      by_cases hlt : μ m < bound
      · obtain ⟨j, hj, hgrow⟩ := h m hm hlt
        exact ih j (by omega) (by omega)
      · exact ⟨m, hm, by omega⟩
  exact reach _ n le_rfl le_rfl

end Sys2Proof.Machine
end

section
/-! PROOFS. In a fair execution what `TX` holds is sent (70_reset_and_hazards.md R286). -/

namespace Sys2Proof.Machine

/-! ### What has gone out and what is still to go -/

/-- What has gone out on the wire followed by what `TX` holds (40_ring.md R141). -/
def State.txStream (s : State) : List Byte :=
  s.txTrace ++ s.contents .tx

namespace TxEffect

variable {s t : State} {e : Event}

theorem trace_prefix (h : TxEffect s t e) : s.txTrace <+: t.txTrace := by
  cases h with
  | send v _ htrace => rw [htrace]; exact List.prefix_append _ _
  | publish _ _ _ htrace | syn _ _ _ htrace | still _ _ _ _ _ htrace => rw [htrace]

theorem stream_prefix (h : TxEffect s t e) : s.txStream <+: t.txStream := by
  unfold State.txStream
  cases h with
  | publish v _ hbytes htrace => rw [hbytes, htrace, ← List.append_assoc]; exact List.prefix_append _ _
  | send v hbytes htrace => rw [hbytes, htrace, List.append_assoc, List.singleton_append]
  | syn _ _ hbytes htrace => rw [hbytes, htrace]
  | still _ _ _ _ hkept htrace => rw [hkept.contents, htrace]

/-- While nothing is sent, `TXC` goes on seeing what it saw. -/
theorem seen_le (h : TxEffect s t e) (hstall : t.txTrace = s.txTrace) : s.visibleCount .tx ≤ t.visibleCount .tx := by
  cases h with
  | send v _ htrace => rw [hstall] at htrace; simp at htrace
  | publish _ _ _ _ hseen => exact hseen
  | syn k _ _ _ hseen => rw [hseen]; exact Nat.le_add_right _ _
  | still _ _ _ _ hkept => exact hkept.visibleCount.ge

theorem seen_lt_of_syn {k : Nat} (h : TxEffect s t (.syn .tx .head k)) : s.visibleCount .tx < t.visibleCount .tx := by
  cases h with
  | syn _ hk _ _ hseen => omega
  | still _ _ _ hsyn => exact absurd rfl (hsyn k)

theorem sends (h : TxEffect s t .txc) (hdata : s.emptyC .tx = false) : t.txTrace ≠ s.txTrace := by
  cases h with
  | send v _ htrace => rw [htrace]; simp
  | still _ _ hstop => exact Bool.noConfusion (hdata.symm.trans (hstop rfl))

end TxEffect

namespace Execution

variable {run : Nat → State} {ev : Nat → Option Event}

theorem txTrace_prefix (h : Execution run ev) (h0 : Inv (run 0)) {m n : Nat} (hmn : m ≤ n) :
    (run m).txTrace <+: (run n).txTrace :=
  h.rel_of_le h0 (r := fun a b : List Byte => a <+: b) (fun _ _ _ hi ht => (hi.txEffect ht).trace_prefix) hmn

theorem txStream_prefix (h : Execution run ev) (h0 : Inv (run 0)) {m n : Nat} (hmn : m ≤ n) :
    (run m).txStream <+: (run n).txStream :=
  h.rel_of_le h0 (r := fun a b : List Byte => a <+: b) (fun _ _ _ hi ht => (hi.txEffect ht).stream_prefix) hmn

/-- All that `TX` held at state `n` is sent once the trace is long enough. -/
theorem sentBy_of_length (h : Execution run ev) (h0 : Inv (run 0)) {m n : Nat} (hmn : n ≤ m)
    (hlen : (run n).txStream.length ≤ (run m).txTrace.length) : sentBy run n m :=
  List.prefix_of_prefix_length_le (h.txStream_prefix h0 hmn) (List.prefix_append _ _) hlen

/-! ### A ring that waits does not wait for ever -/

/-- In a fair execution `TXC` comes to see a byte of a ring that is not emptied. -/
theorem txc_sees (h : Execution run ev) (h0 : Inv (run 0)) (hfair : Fair run ev) {n : Nat}
    (hload : ∀ m ≥ n, 0 < (run m).occ .tx) : ∃ m ≥ n, 0 < (run m).visibleCount .tx := by
  by_contra hblind
  push Not at hblind
  have hen : ∀ m ≥ n, (run m).enabled (.syn .tx .head 1) = true := fun m hm =>
    (h.inv h0 m).tx_ok.syn_head_enabled ((hblind m hm).trans_lt (hload m hm))
  obtain ⟨m, hm, k, hev⟩ := hfair.syn .tx .head n hen
  have hgrow := ((h.inv h0 m).txEffect (h.takes hev)).seen_lt_of_syn
  have hzero := hblind (m + 1) (by omega)
  omega

/-- In a fair execution a `TXC` step is taken that is enabled but for sessions. -/
theorem txc_taken (h : Execution run ev) (hfair : Fair run ev) {n : Nat}
    (hctrl : ∀ m ≥ n, (run m).ctrl.txie = true ∧ (run m).ctrl.imask = false)
    (hdata : ∀ m ≥ n, (run m).emptyC .tx = false)
    (hsession : (∀ m ≥ n, (run m).insvc = .none) ∨ TxcAcrossSessions run ev) : ∃ m ≥ n, ev m = some .txc := by
  have hen : ∀ m ≥ n, (run m).insvc = .none → (run m).enabled .txc = true := fun m hm hidle => by
    obtain ⟨hie, hmask⟩ := hctrl m hm
    simp [State.enabled, State.interruptible, hidle, hmask, hie, hdata m hm]
  rcases hsession with hidle | hacross
  · exact hfair.txc n fun m hm => hen m hm (hidle m hm)
  · refine hacross n fun m hm => ?_
    cases hins : (run m).insvc with
    | none => exact ⟨m, le_rfl, hen m hm hins⟩
    | a =>
      obtain ⟨j, hj, hev⟩ := hfair.session m hins
      obtain ⟨-, l, hleave⟩ := h.takes hev
      have hidle : (run (j + 1)).insvc = .none := by
        injection hleave with hleave
        rw [← hleave]
        rfl
      exact ⟨j + 1, by omega, hen _ (by omega) hidle⟩

/-- In a fair execution a ring that is not emptied, its source enabled and unmasked, sends a byte. -/
theorem txTrace_grows (h : Execution run ev) (h0 : Inv (run 0)) (hfair : Fair run ev) {n : Nat}
    (hload : ∀ m ≥ n, 0 < (run m).occ .tx)
    (hctrl : ∀ m ≥ n, (run m).ctrl.txie = true ∧ (run m).ctrl.imask = false)
    (hsession : (∀ m ≥ n, (run m).insvc = .none) ∨ TxcAcrossSessions run ev) :
    ∃ m ≥ n, (run n).txTrace.length < (run m).txTrace.length := by
  by_contra hno
  push Not at hno
  have hconst : ∀ m ≥ n, (run m).txTrace = (run n).txTrace := fun m hm =>
    ((h.txTrace_prefix h0 hm).eq_of_length_le (hno m hm)).symm
  have hstall : ∀ m ≥ n, (run (m + 1)).txTrace = (run m).txTrace := fun m hm =>
    (hconst (m + 1) (by omega)).trans (hconst m hm).symm
  obtain ⟨j, hj, hseen⟩ := h.txc_sees h0 hfair hload
  have hsees : ∀ m ≥ j, 0 < (run m).visibleCount .tx := fun m hm => by
    induction m, hm using Nat.le_induction with
    | base => exact hseen
    | succ m hm ih =>
      cases hev : ev m with
      | none => rw [h.rests hev]; exact ih
      | some e => exact ih.trans_le (((h.inv h0 m).txEffect (h.takes hev)).seen_le (hstall m (by omega)))
  have hdata : ∀ m ≥ j, (run m).emptyC .tx = false := fun m hm =>
    (h.inv h0 m).tx_ok.visibleCount_pos.mp (hsees m hm)
  obtain ⟨m, hm, hev⟩ := h.txc_taken hfair (fun m hm => hctrl m (by omega)) hdata
    (hsession.imp_left fun hidle m hm => hidle m (by omega))
  exact ((h.inv h0 m).txEffect (h.takes hev)).sends (hdata m hm) (hstall m (by omega))

/-- What `TX` holds is sent, if it is not stopped or masked before. -/
theorem eventually_sentBy (h : Execution run ev) (h0 : Inv (run 0)) (hfair : Fair run ev) (n : Nat)
    (hctrl : ∀ m ≥ n, ¬sentBy run n m → (run m).ctrl.txie = true ∧ (run m).ctrl.imask = false)
    (hsession : (∀ m ≥ n, ¬sentBy run n m → (run m).insvc = .none) ∨ TxcAcrossSessions run ev) :
    ∃ m ≥ n, sentBy run n m := by
  by_contra hno
  push Not at hno
  have hload : ∀ m ≥ n, 0 < (run m).occ .tx := fun m hm => by
    rw [← (h.inv h0 m).tx_ok.length_contents, List.length_pos_iff]
    intro hnil
    refine hno m hm ?_
    have hpre := h.txStream_prefix h0 hm
    rwa [State.txStream, State.txStream, hnil, List.append_nil] at hpre
  obtain ⟨m, hm, hlen⟩ := exists_ge_of_grows (μ := fun m => (run m).txTrace.length) (bound := (run n).txStream.length)
    (n := n) fun m hm _ => h.txTrace_grows h0 hfair (fun j hj => hload j (by omega))
      (fun j hj => hctrl j (by omega) (hno j (by omega)))
      (hsession.imp_left fun hidle j hj => hidle j (by omega) (hno j (by omega)))
  exact hno m hm (h.sentBy_of_length h0 hm hlen)

end Execution

/-- Settles O22: a publish adds its byte at the new end, and as long as something is left to send a byte more goes
out. -/
theorem everyByteInTxIsTransmitted : Obligations.EveryByteInTxIsTransmitted := by
  intro run ev h0 h
  refine ⟨fun n x v hev hpub => ?_, fun hfair n hctrl hsession => h.eventually_sentBy h0 hfair n hctrl hsession⟩
  generalize hm : Event.micro x = e at hev
  cases (h.inv h0 n).txEffect (h.takes hev) with
  | publish w hpub' hbytes =>
    cases hm
    cases hpub.symm.trans hpub'
    exact hbytes
  | send | syn => cases hm
  | still _ hnone => exact nomatch hpub.symm.trans (hnone x hm.symm)

end Sys2Proof.Machine
end

section
/-! PROOFS. In a fair execution what `RX` holds becomes readable (70_reset_and_hazards.md R286). -/

namespace Sys2Proof.Machine

/-! ### What is returned and what is still to return -/

/-- The byte a step from `s` to `t` returns from `RX`, if it is a release. -/
def releasedBy (s t : State) : List Byte :=
  if s.rx.tail = t.rx.tail then [] else [s.cur.t]

theorem takenFrom_succ (run : Nat → State) (n k : Nat) :
    takenFrom run n (k + 1) = takenFrom run n k ++ releasedBy (run (n + k)) (run (n + k + 1)) := rfl

theorem releasedBy_of_tail {s t : State} (h : t.rx.tail = s.rx.tail) : releasedBy s t = [] :=
  if_pos h.symm

namespace RxEffect

variable {s t : State} {e : Event}

theorem contents_prefix (h : RxEffect s t e) : s.contents .rx <+: releasedBy s t ++ t.contents .rx := by
  cases h with
  | receive v _ hbytes htail => rw [releasedBy_of_tail htail, hbytes]; exact List.prefix_append _ _
  | release _ hbytes htail => rw [releasedBy, if_neg (Ne.symm htail), hbytes, List.singleton_append]
  | syn _ _ hbytes htail => rw [releasedBy_of_tail htail, hbytes, List.nil_append]
  | drop _ _ hkept | still _ _ _ hkept => rw [releasedBy_of_tail hkept.tail, hkept.contents, List.nil_append]

/-- What has been returned or is seen does not become less. -/
theorem seen_le (h : RxEffect s t e) : s.visibleCount .rx ≤ (releasedBy s t).length + t.visibleCount .rx := by
  cases h with
  | receive _ _ _ htail hseen => exact hseen.trans (Nat.le_add_left _ _)
  | release _ _ htail hseen => rw [releasedBy, if_neg (Ne.symm htail), hseen, Nat.add_comm]; rfl
  | syn _ _ _ _ hseen => rw [hseen]; omega
  | drop _ _ hkept | still _ _ _ hkept => rw [hkept.visibleCount]; exact Nat.le_add_left _ _

theorem seen_lt_of_syn {k : Nat} (h : RxEffect s t (.syn .rx .head k)) : s.visibleCount .rx < t.visibleCount .rx := by
  cases h with
  | syn _ hk _ _ hseen => omega
  | still _ _ hsyn => exact absurd rfl (hsyn k)

end RxEffect

/-- How many bytes of `RX` have been returned since state `n` or are seen at state `n + k`. -/
def readableCount (run : Nat → State) (n k : Nat) : Nat :=
  (takenFrom run n k).length + (run (n + k)).visibleCount .rx

namespace Execution

variable {run : Nat → State} {ev : Nat → Option Event}

/-- Bytes leave `RX` in order: what it held has been returned or is still in it (40_ring.md R141). -/
theorem contents_prefix_taken (h : Execution run ev) (h0 : Inv (run 0)) (n k : Nat) :
    (run n).contents .rx <+: takenFrom run n k ++ (run (n + k)).contents .rx := by
  induction k with
  | zero => exact List.prefix_rfl
  | succ k ih =>
    refine ih.trans ?_
    rw [takenFrom_succ, List.append_assoc, List.prefix_append_right_inj]
    cases hev : ev (n + k) with
    | none => rw [← Nat.add_assoc, h.rests hev, releasedBy_of_tail rfl, List.nil_append]
    | some e => exact ((h.inv h0 _).rxEffect (h.takes hev)).contents_prefix

theorem readableCount_mono (h : Execution run ev) (h0 : Inv (run 0)) (n : Nat) : Monotone (readableCount run n) := by
  refine monotone_nat_of_le_succ fun k => ?_
  rw [readableCount, readableCount, takenFrom_succ, List.length_append, Nat.add_assoc, ← Nat.add_assoc n]
  refine Nat.add_le_add_left ?_ _
  cases hev : ev (n + k) with
  | none => rw [h.rests hev]; exact Nat.le_add_left _ _
  | some e => exact ((h.inv h0 _).rxEffect (h.takes hev)).seen_le

/-- In a fair execution more becomes readable as long as not all that `RX` held is. -/
theorem readableCount_grows (h : Execution run ev) (h0 : Inv (run 0)) (hfair : Fair run ev) {n k : Nat}
    (hlt : readableCount run n k < (run n).occ .rx) : ∃ j ≥ k, readableCount run n k < readableCount run n j := by
  by_contra hno
  push Not at hno
  have hen : ∀ m ≥ n + k, (run m).enabled (.syn .rx .head 1) = true := fun m hm => by
    obtain ⟨j, rfl⟩ := Nat.exists_eq_add_of_le (show n ≤ m by omega)
    have hlen := (h.contents_prefix_taken h0 n j).length_le
    rw [List.length_append, (h.inv h0 _).rx_ok.length_contents, (h.inv h0 _).rx_ok.length_contents] at hlen
    have hj := hno j (by omega)
    exact (h.inv h0 _).rx_ok.syn_head_enabled (by unfold readableCount at hj hlt; omega)
  obtain ⟨m, hm, i, hev⟩ := hfair.syn .rx .head _ hen
  obtain ⟨j, rfl⟩ := Nat.exists_eq_add_of_le (show n ≤ m by omega)
  have hgrow := ((h.inv h0 _).rxEffect (h.takes hev)).seen_lt_of_syn
  have hmono := h.readableCount_mono h0 n (show k ≤ j by omega)
  have hnext := hno (j + 1) (by omega)
  rw [readableCount, readableCount, takenFrom_succ, List.length_append, ← Nat.add_assoc n] at hnext
  unfold readableCount at hmono
  omega

/-- All that `RX` held has been returned or is seen once enough is. -/
theorem eventually_readable (h : Execution run ev) (h0 : Inv (run 0)) (hfair : Fair run ev) (n : Nat) :
    ∃ k, (run n).contents .rx <+: takenFrom run n k ++ (run (n + k)).visible .rx := by
  obtain ⟨k, -, hk⟩ := exists_ge_of_grows (n := 0) fun k _ hlt => h.readableCount_grows h0 hfair (n := n) hlt
  have hall := h.contents_prefix_taken h0 n k
  have hseen : takenFrom run n k ++ (run (n + k)).visible .rx <+: takenFrom run n k ++ (run (n + k)).contents .rx := by
    rw [List.prefix_append_right_inj]
    exact List.take_prefix _ _
  refine ⟨k, List.prefix_of_prefix_length_le hall hseen ?_⟩
  rw [List.length_append, (h.inv h0 _).rx_ok.length_contents, (h.inv h0 _).rx_ok.length_visible]
  exact hk

end Execution

/-! ### What the consumer sees is what the check and the load find -/

theorem RingInv.emptyC_iff_visible {s : State} {b : RingId} (h : RingInv s b) :
    s.emptyC b = true ↔ s.visible b = [] := by
  rw [← List.length_eq_zero_iff, h.length_visible, h.visibleCount_eq_zero]

/-- The load reads the first byte its consumer sees (20_memory.md R73). -/
theorem RingInv.memRead_of_visible {s : State} {b : RingId} (h : RingInv s b) {v : Byte} {rest : List Byte}
    (hv : s.visible b = v :: rest) : s.memRead b (s.ring b).tail = .ok v := by
  have hdata : s.emptyC b = false := by
    rw [← Bool.not_eq_true, h.emptyC_iff_visible, hv]
    exact List.cons_ne_nil _ _
  obtain ⟨w, hw⟩ := Option.isSome_iff_exists.mp (h.read_tail hdata)
  rw [s.visible_eq_take, h.crel_contents hdata hw, h.crel_visibleCount hdata, List.take_succ_cons] at hv
  injection hv with hv
  exact State.memRead_ok.mpr ⟨h.tail_lt, hv ▸ hw⟩

/-- Settles O23: a reception adds its byte at the new end, and as long as not all that `RX` held is readable more
becomes so. -/
theorem everyReceivedByteBecomesReadable : Obligations.EveryReceivedByteBecomesReadable := by
  refine ⟨fun run ev h0 h => ⟨fun n v hev hroom => ?_, fun hfair n => h.eventually_readable h0 hfair n⟩,
    fun s hi => ⟨hi.rx_ok.emptyC_iff_visible, fun v rest hv => hi.rx_ok.memRead_of_visible hv⟩⟩
  cases (h.inv h0 n).rxEffect (h.takes hev) with
  | receive _ _ hbytes => exact hbytes
  | drop _ hfull => exact Bool.noConfusion (hroom.symm.trans hfull)
  | still _ hrxp => exact absurd rfl (hrxp v)

end Sys2Proof.Machine
end

section
/-! SUPPORT. The progress of a port: each micro-step of its word answers or leaves fewer micro-steps to do, and no other
step touches it (20_memory.md R81; 70_reset_and_hazards.md R287). -/

namespace Sys2Proof.Machine

/-! ### The response trace -/

@[simp] theorem State.filter_rspTrace (s : State) (c : Byte) : (s.filter c).2.rspTrace = s.rspTrace := by
  unfold State.filter
  split_ifs <;> rfl

theorem State.rxpStep_rspTrace {s t : State} {v : Byte} (h : s.rxpStep v = .next t) : t.rspTrace = s.rspTrace := by
  obtain ⟨⟨r, u⟩, hpush, ht⟩ := onOk_next h
  cases ht
  rcases State.pushAtomic_ok hpush with ⟨-, -, rfl⟩ | ⟨-, -, -, rfl⟩ <;> simp

theorem State.txcStep_rspTrace {s t : State} (h : s.txcStep = .next t) : t.rspTrace = s.rspTrace := by
  obtain ⟨⟨r, u⟩, hpop, ht⟩ := onOk_next h
  rcases State.popAtomic_ok hpop with ⟨-, rfl, rfl⟩ | ⟨v, -, rfl, -, -, rfl⟩ <;> cases ht <;> simp

/-! ### The micro-steps of a legal command -/

/-- A micro-step of `i` ends it with one response, or goes on with fewer micro-steps left and no response. -/
inductive MicroProgress (i : Instr) (s t : State) : Prop
  | answered (hidle : t.cur.busy = false) (htrace : t.rspTrace = s.rspTrace ++ [(s.stepping, t.cur.rsp)])
  | goesOn (hbusy : t.cur.busy = s.cur.busy) (hcmd : t.cur.cmd = s.cur.cmd)
      (hless : stepsLeft t.cur.lf i t.cur.upc.toNat < stepsLeft s.cur.lf i s.cur.upc.toNat)
      (htrace : t.rspTrace = s.rspTrace)

namespace MicroProgress

section
variable {i : Instr} {s t u : State}

theorem respond (w : Word) (hins : u.insvc = s.insvc) (htrace : u.rspTrace = s.rspTrace) :
    MicroProgress i s (u.respond w) :=
  .answered (by simp) (by simp [htrace, State.stepping_congr hins])

theorem goto {k : Nat} {j : BitVec 4} (hk : s.cur.upc.toNat = k) (hcur : u.cur = s.cur)
    (htrace : u.rspTrace = s.rspTrace) (hless : ∀ lf, stepsLeft lf i j.toNat < stepsLeft lf i k) :
    MicroProgress i s (u.goto j) :=
  .goesOn (by simp [hcur]) (by simp [hcur]) (by simpa [hcur, hk] using hless s.cur.lf) (by simp [htrace])

theorem single {w : Word} (hins : u.insvc = s.insvc) (htrace : u.rspTrace = s.rspTrace)
    (h : single s (u.respond w) = .next t) : MicroProgress i s t := by
  obtain ⟨-, rfl⟩ := single_next h
  exact respond w hins htrace

theorem loadT {k : Nat} {j : BitVec 4} (hk : s.cur.upc.toNat = k) (h : s.loadT .rx j = .next t)
    (hless : ∀ lf, stepsLeft lf i j.toNat < stepsLeft lf i k) : MicroProgress i s t := by
  obtain ⟨v, -, -, rfl⟩ := State.loadT_next h
  exact .goesOn (by simp) (by simp) (by simpa [hk] using hless s.cur.lf) (by simp)

theorem storeTx {k : Nat} {v : Byte} {j : BitVec 4} (hk : s.cur.upc.toNat = k) (h : s.storeThen .tx v j = .next t)
    (hless : ∀ lf, stepsLeft lf i j.toNat < stepsLeft lf i k) : MicroProgress i s t := by
  obtain ⟨-, rfl⟩ := State.storeThen_next h
  exact goto hk (s.stored_cur .tx v) (by simp) hless

end

section
variable {d : Byte} {s t : State}

theorem execTxpush (h : execTxpush d s = .next t) : MicroProgress (.txpush d) s t := by
  unfold Machine.execTxpush at h
  split at h <;> rename_i hk
  · obtain ⟨-, ⟨-, rfl⟩ | ⟨-, rfl⟩⟩ := State.pchk_next h
    · exact respond _ rfl rfl
    · exact goto hk rfl rfl (by simp [stepsLeft, lastIndex])
  · exact storeTx hk h (by simp [stepsLeft, lastIndex])
  · cases h; exact respond _ (by simp) (by simp)
  · cases h

theorem execRxpop (h : execRxpop s = .next t) : MicroProgress .rxpop s t := by
  unfold Machine.execRxpop at h
  split at h <;> rename_i hk
  · obtain ⟨-, ⟨-, rfl⟩ | ⟨-, rfl⟩⟩ := State.cchk_next h
    · exact respond _ rfl rfl
    · exact goto hk rfl rfl (by simp [stepsLeft, lastIndex])
  · exact loadT hk h (by simp [stepsLeft, lastIndex])
  · cases h; exact respond _ (by simp) (by simp)
  · cases h

theorem execRd (h : execRd s = .next t) : MicroProgress .rd s t := by
  unfold Machine.execRd at h
  split at h <;> rename_i hk
  · cases h; exact goto hk (by simp) (by simp) (by simp [stepsLeft])
  · obtain ⟨-, ⟨-, rfl⟩ | ⟨-, rfl⟩⟩ := State.cchk_next h <;> exact goto hk rfl rfl (by simp [stepsLeft])
  · exact loadT hk h (by simp [stepsLeft])
  · cases h; exact goto hk (by simp) (by simp) (by simp [stepsLeft])
  · cases h; exact respond _ (by simp) (by simp)
  · cases h; exact respond _ (by simp) (by simp)
  · cases h

/-- XLAT leaves two bytes to write only for a line feed (42_channel.md R176). -/
theorem xlat (hk : s.cur.upc.toNat = 0) : MicroProgress (.wr d) s ((s.xlat d).goto 1) := by
  unfold State.xlat
  split <;> rename_i hlf
  · exact .goesOn (by simp) (by simp) (by simp [stepsLeft, hk, hlf.1]) (by simp)
  · refine .goesOn (by simp) (by simp) ?_ (by simp)
    by_cases hd : d = charLf <;> simp [stepsLeft, hk, hd]

/-- NEXT goes back to u1 once (42_channel.md R174). -/
theorem nextByte (hk : s.cur.upc.toNat = 9) : MicroProgress (.wr d) s s.nextByte := by
  unfold State.nextByte
  split <;> rename_i hlf
  · exact .goesOn (by simp) (by simp) (by simp [stepsLeft, hk, hlf]) (by simp)
  · exact respond _ rfl rfl

theorem execWr (h : execWr d s = .next t) : MicroProgress (.wr d) s t := by
  unfold Machine.execWr at h
  split at h <;> rename_i hk
  · cases h; exact xlat hk
  · cases h
    rcases s.filt_cases with hf | hf <;> rw [hf] <;>
      exact goto hk (by simp) (by simp) (by simp [stepsLeft])
  · cases h; exact goto hk (by simp) (by simp) (by simp [stepsLeft])
  · obtain ⟨-, ⟨-, rfl⟩ | ⟨-, rfl⟩⟩ := State.pchk_next h <;> exact goto hk rfl rfl (by simp [stepsLeft])
  · exact storeTx hk h (by simp [stepsLeft])
  · cases h; exact goto hk (by simp) (by simp) (by simp [stepsLeft])
  · cases h; exact goto hk (by simp) (by simp) (by simp [stepsLeft])
  · cases h; exact goto hk (by simp) (by simp) (by simp [stepsLeft])
  · cases h; exact goto hk (by simp) (by simp) (by simp [stepsLeft])
  · cases h; exact nextByte hk
  · cases h

theorem exec {i : Instr} (h : exec i s = .next t) : MicroProgress i s t := by
  cases i with
  | rd => exact execRd h
  | wr d => exact execWr h
  | rxpop => exact execRxpop h
  | txpush d => exact execTxpush h
  | fstep d => exact single (MicroFrame.filter s d).insvc (by simp) h
  | ctls d => exact single (u := { s with ctrl := s.ctrl.setBits d }) rfl rfl h
  | ctlc d => exact single (u := { s with ctrl := s.ctrl.clearBits d }) rfl rfl h
  | cack => exact single (u := { s with cancelPend := false }) rfl rfl h
  | nop | rxempty | txfull | ctlr | stat | ptrr => exact single rfl rfl h

end

end MicroProgress

/-! ### A word, legal or not, on its port -/

theorem State.stepsLeft_of_decode {s : State} {x : Port} {i : Instr} (h : decode (s.port x).cmd = .ok i) :
    s.stepsLeft x = Machine.stepsLeft (s.port x).lf i (s.port x).upc.toNat := by
  simp [State.stepsLeft, h]

theorem MicroFrame.port_stepping {s t : State} (h : MicroFrame s t) : t.port s.stepping = t.cur := by
  rw [State.cur, State.stepping_congr h.insvc]

/-- From `s` to `t` the word of port `x` goes on with fewer micro-steps left and no response, or ends with one. -/
def State.GoesOnOrEnds (s t : State) (x : Port) : Prop :=
  ((t.port x).busy = true ∧ (t.port x).cmd = (s.port x).cmd ∧ t.stepsLeft x < s.stepsLeft x ∧
    t.rspTrace = s.rspTrace) ∨
  ((t.port x).busy = false ∧ t.rspTrace = s.rspTrace ++ [(x, (t.port x).rsp)])

/-- A micro-step of any word, legal or not (30_encoding.md R97). -/
theorem State.runMicro_progress {s t : State} (hb : s.cur.busy = true) (h : s.runMicro = .next t) :
    s.GoesOnOrEnds t s.stepping := by
  have hx := (MicroFrame.runMicro h).port_stepping
  unfold State.runMicro at h
  split at h
  · rename_i i hdec
    rcases MicroProgress.exec h with ⟨hidle, htrace⟩ | ⟨hbusy, hcmd, hless, htrace⟩
    · exact .inr ⟨hx ▸ hidle, hx ▸ htrace⟩
    · have hdec' : decode (t.port s.stepping).cmd = .ok i := by rw [hx, hcmd]; exact hdec
      refine .inl ⟨?_, hx ▸ hcmd, ?_, htrace⟩
      · rw [hx, hbusy]; exact hb
      · rw [State.stepsLeft_of_decode hdec', State.stepsLeft_of_decode (x := s.stepping) hdec, hx]; exact hless
  · obtain ⟨-, rfl⟩ := single_next h
    exact .inr ⟨by rw [hx]; simp, by rw [hx]; simp⟩

/-- A step that is no micro-step leaves the latches of a busy port and gives no response. -/
theorem State.perform_leaves_busy {s t : State} {e : Event} (hmicro : ∀ x, e ≠ .micro x) (he : s.enabled e = true)
    (hp : s.perform e = .next t) :
    (∀ x, (s.port x).busy = true → t.port x = s.port x) ∧ t.rspTrace = s.rspTrace := by
  cases e with
  | accept y w =>
    obtain ⟨-, hready⟩ : s.stepping = y ∧ (s.port y).busy = false := by simpa [State.enabled, State.cmdReady] using he
    cases hp
    refine ⟨fun x hb => s.setPort_port_of_ne _ ?_, by simp⟩
    rintro rfl
    exact Bool.noConfusion (hready.symm.trans hb)
  | micro x => exact absurd rfl (hmicro x)
  | aEnter => cases hp; exact ⟨fun x _ => State.port_congr rfl rfl x, rfl⟩
  | aLeave => cases hp; exact ⟨fun x _ => State.port_congr rfl rfl x, rfl⟩
  | rxp v =>
    obtain ⟨-, hf, ha⟩ := State.rxpStep_latches hp
    exact ⟨fun x _ => State.port_congr hf ha x, State.rxpStep_rspTrace hp⟩
  | txc =>
    obtain ⟨-, hf, ha⟩ := State.txcStep_latches hp
    exact ⟨fun x _ => State.port_congr hf ha x, State.txcStep_rspTrace hp⟩
  | syn b p k => cases hp; exact ⟨fun x _ => State.port_congr (by simp) (by simp) x, by simp⟩
  | quirk y => cases hp; exact ⟨fun x _ => State.port_congr (by simp) (by simp) x, by simp⟩

/-! ### What a step does to a busy port -/

/-- From `s` to `t` port `x` keeps its latches and gives no response (60_exceptions.md R254). -/
def State.LeavesPort (s t : State) (x : Port) : Prop :=
  t.port x = s.port x ∧ ∃ l, t.rspTrace = s.rspTrace ++ l ∧ ∀ r ∈ l, r.1 ≠ x

theorem State.LeavesPort.of_trace {s t : State} {x : Port} (hport : t.port x = s.port x)
    (htrace : t.rspTrace = s.rspTrace) : s.LeavesPort t x :=
  ⟨hport, [], by simp [htrace], by simp⟩

/-- A micro-step of the other port gives responses of that port alone. -/
theorem State.runMicro_leavesPort {s t : State} {x : Port} (hx : s.stepping ≠ x) (hb : s.cur.busy = true)
    (h : s.runMicro = .next t) : s.LeavesPort t x := by
  have hport : t.port x = s.port x := by
    rcases Port.eq_or_other s.stepping x with rfl | rfl
    · exact absurd rfl hx
    · exact (MicroFrame.runMicro h).other
  rcases State.runMicro_progress hb h with ⟨-, -, -, htrace⟩ | ⟨-, htrace⟩
  · exact .of_trace hport htrace
  · exact ⟨hport, _, htrace, by simpa using hx⟩

/-- A step that is taken is the busy port's own micro-step, or leaves the port. -/
theorem State.perform_progress {s t : State} {e : Event} {x : Port} (hb : (s.port x).busy = true)
    (he : s.enabled e = true) (hp : s.perform e = .next t) :
    (e = .micro x ∧ s.stepping = x ∧ s.GoesOnOrEnds t x) ∨
    (¬(e = .micro x ∧ s.stepping = x) ∧ s.LeavesPort t x) := by
  by_cases hmicro : ∃ y, e = .micro y
  · obtain ⟨y, rfl⟩ := hmicro
    obtain ⟨rfl, hb'⟩ := State.of_enabled_micro he
    by_cases hx : s.stepping = x
    · subst hx
      exact .inl ⟨rfl, rfl, State.runMicro_progress hb' hp⟩
    · exact .inr ⟨fun hown => hx hown.2, State.runMicro_leavesPort hx hb' hp⟩
  · push Not at hmicro
    obtain ⟨hports, htrace⟩ := State.perform_leaves_busy hmicro he hp
    exact .inr ⟨fun hown => hmicro x hown.1, .of_trace (hports x hb) htrace⟩

theorem step_progress {s t : State} {x : Port} (h : step s = .next t) (hb : (s.port x).busy = true) :
    (s.nextEvent = some (.micro x) ∧ s.stepping = x ∧ s.GoesOnOrEnds t x) ∨
    (¬(s.nextEvent = some (.micro x) ∧ s.stepping = x) ∧ s.LeavesPort t x) := by
  rcases step_rests_or_takes h with ⟨⟨l, rfl⟩, hoff⟩ | ⟨e, hev, he, l, hp⟩
  · refine .inr ⟨fun ⟨hev, hstep⟩ => ?_, .of_trace (State.port_congr rfl rfl x) rfl⟩
    have hoff' := hoff _ hev
    simp [State.enabled, hstep, hb] at hoff'
  · rw [hev, Option.some.injEq]
    exact State.perform_progress (s := { s with script := l }) hb ((s.setScript_enabled l e).trans he) hp

/-! ### Where the stop of R230 can be met -/

theorem State.pchk_fault {s u v : State} {e : Fault} (h : s.pchk u v = .fault e) :
    s.stepping = .a ∧ s.openP = true := by
  unfold State.pchk at h
  split at h
  · assumption
  · cases h

theorem State.cchk_fault {s u v : State} {e : Fault} (h : s.cchk u v = .fault e) :
    s.stepping = .a ∧ s.openC = true := by
  unfold State.cchk at h
  split at h
  · assumption
  · cases h

theorem State.loadT_ne_spsc {s : State} {b : RingId} {k : BitVec 4} : s.loadT b k ≠ .fault .spscViolation := fun h => by
  rcases State.memRead_error (State.loadT_fault.mp h) with ⟨he, -⟩ | ⟨he, -⟩ <;> cases he

theorem State.storeThen_ne_spsc {s : State} {b : RingId} {v : Byte} {k : BitVec 4} :
    s.storeThen b v k ≠ .fault .spscViolation := fun h => by
  obtain ⟨he, -⟩ := State.storeThen_fault.mp h
  cases he

theorem single_ne_spsc {s u : State} : single s u ≠ .fault .spscViolation := fun h => by
  unfold single at h
  split at h <;> cases h

/-- Only a check of port A, of an end that port F has open, records `SpscViolation` (60_exceptions.md R230). -/
theorem meetsOpenEnd_of_exec {i : Instr} {s : State} (h : exec i s = .fault .spscViolation) : s.meetsOpenEnd i := by
  cases i with
  | rd =>
    simp only [exec, execRd] at h
    split at h
    case h_2 => exact State.cchk_fault h
    case h_3 => exact absurd h State.loadT_ne_spsc
    all_goals cases h
  | rxpop =>
    simp only [exec, execRxpop] at h
    split at h
    case h_1 => exact State.cchk_fault h
    case h_2 => exact absurd h State.loadT_ne_spsc
    all_goals cases h
  | txpush d =>
    simp only [exec, execTxpush] at h
    split at h
    case h_1 => exact State.pchk_fault h
    case h_2 => exact absurd h State.storeThen_ne_spsc
    all_goals cases h
  | wr d =>
    simp only [exec, execWr] at h
    split at h
    case h_4 => exact State.pchk_fault h
    case h_5 => exact absurd h State.storeThen_ne_spsc
    all_goals cases h
  | nop | rxempty | txfull | fstep | ctlr | ctls | ctlc | stat | cack | ptrr => exact absurd h single_ne_spsc

/-- A micro-step of port A does not change which ends port F has open. -/
theorem MicroFrame.meetsOpenEnd {s t : State} (h : MicroFrame s t) {i : Instr} (hm : t.meetsOpenEnd i) :
    s.meetsOpenEnd i := by
  have hstep : t.stepping = s.stepping := State.stepping_congr h.insvc
  have hf (ha : t.stepping = .a) : t.f = s.f := by
    have hother := h.other
    rw [← hstep, ha] at hother
    exact hother
  have hopenP (hx : t.stepping = .a ∧ t.openP = true) : s.stepping = .a ∧ s.openP = true := by
    refine ⟨hstep ▸ hx.1, ?_⟩
    rw [State.openP, ← hf hx.1]
    exact hx.2
  have hopenC (hx : t.stepping = .a ∧ t.openC = true) : s.stepping = .a ∧ s.openC = true := by
    refine ⟨hstep ▸ hx.1, ?_⟩
    rw [State.openC, ← hf hx.1]
    exact hx.2
  cases i with
  | txpush | wr => exact hopenP hm
  | rxpop | rd => exact hopenC hm
  | nop | rxempty | txfull | fstep | ctlr | ctls | ctlc | stat | cack | ptrr => exact hm

/-! ### A command run alone -/

section
variable {i : Instr} {s t : State} (k : Nat)

theorem runCommand_of_idle (hb : s.cur.busy = false) : runCommand i k s = .next s := by
  cases k <;> simp [runCommand, hb]

theorem runCommand_of_next (hb : s.cur.busy = true) (h : exec i s = .next t) :
    runCommand i (k + 1) s = runCommand i k t := by
  simp [runCommand, hb, h]

theorem runCommand_of_fault {e : Fault} (hb : s.cur.busy = true) (h : exec i s = .fault e) :
    runCommand i (k + 1) s = .fault e := by
  simp [runCommand, hb, h]

end

theorem stepsLeft_pos {lf : Bool} {i : Instr} {k : Nat} (h : k ≤ lastIndex i) : 0 < stepsLeft lf i k := by
  cases i with
  | rd | wr =>
    simp only [lastIndex] at h
    simp only [stepsLeft]
    split_ifs <;> omega
  | _ => exact Nat.sub_pos_of_lt (Nat.lt_succ_of_le h)

theorem stepsLeft_zero_le (lf : Bool) (i : Instr) : stepsLeft lf i 0 ≤ 17 := by
  cases i with
  | wr d =>
    simp only [stepsLeft]
    split_ifs <;> decide
  | _ => simp [stepsLeft, lastIndex]

/-- How a command run alone for at most `k` micro-steps ends: with one response, or at an open end of port F. -/
def RunsToItsEnd (i : Instr) (k : Nat) (s : State) : Prop :=
  (∃ t : State, runCommand i k s = .next t ∧ t.cur.busy = false ∧
    t.rspTrace = s.rspTrace ++ [(s.stepping, t.cur.rsp)]) ∨
  (s.meetsOpenEnd i ∧ runCommand i k s = .fault .spscViolation)

/-- From a state of the invariant a command ends within the micro-steps it has left. -/
theorem Inv.runsToItsEnd {i : Instr} (k : Nat) {s : State} (hi : Inv s) (hrun : s.running s.stepping = some i)
    (hk : s.stepsLeft s.stepping ≤ k) : RunsToItsEnd i k s := by
  induction k generalizing s with
  | zero =>
    obtain ⟨hb, hdec⟩ := State.running_busy hrun
    have hle := (hi.port s.stepping).index_le hb
    rw [State.lastStep_of_decode hdec] at hle
    rw [State.stepsLeft_of_decode hdec] at hk
    exact absurd hk (stepsLeft_pos hle).not_ge
  | succ k ih =>
    obtain ⟨hb, hdec⟩ : s.cur.busy = true ∧ decode s.cur.cmd = .ok i := State.running_busy hrun
    have hexec : s.runMicro = exec i s := by simp only [State.runMicro, hdec]
    rcases hi.runMicro_answers hb with ⟨t, ht⟩ | hspsc
    · have hframe := MicroFrame.runMicro ht
      have hstep : t.stepping = s.stepping := State.stepping_congr hframe.insvc
      have hnext := runCommand_of_next k hb (hexec ▸ ht)
      rw [RunsToItsEnd, hnext]
      rcases State.runMicro_progress hb ht with ⟨hbusy, hcmd, hless, htrace⟩ | ⟨hidle, htrace⟩
      · have hen : s.enabled (.micro s.stepping) = true := by
          have hb' : (s.port s.stepping).busy = true := hb
          simp [State.enabled, hb']
        have hrun' : t.running t.stepping = some i := by
          rw [hstep]
          exact State.running_of_decode hbusy (by rw [hcmd]; exact hdec)
        have hend := ih (hi.perform hen ht) hrun' (by rw [hstep]; omega)
        rw [RunsToItsEnd, htrace, hstep] at hend
        exact hend.imp_right fun ⟨hmeets, hfault⟩ => ⟨hframe.meetsOpenEnd hmeets, hfault⟩
      · rw [hframe.port_stepping] at hidle htrace
        exact .inl ⟨t, runCommand_of_idle k hidle, hidle, htrace⟩
    · have hfault : exec i s = .fault .spscViolation := hexec ▸ hspsc
      exact .inr ⟨meetsOpenEnd_of_exec hfault, runCommand_of_fault k hb hfault⟩

end Sys2Proof.Machine
end

section
/-! PROOFS. Every word ends (20_memory.md R81; 30_encoding.md R94; 70_reset_and_hazards.md R287). -/

namespace Sys2Proof.Machine

/-- Settles O44: by the progress of one micro-step; run alone, by induction on the micro-steps left. -/
theorem everyCommandEndsWithin17 : Obligations.EveryCommandEndsWithin17 := by
  refine ⟨fun s t x h hb => ?_, fun s x hzero => ?_, fun s i hi hrun hzero => ?_⟩
  · rcases step_progress h hb with ⟨hev, hstep, ⟨hbusy, hcmd, hless, htrace⟩ | ⟨hidle, htrace⟩⟩ | hother
    · exact .inl ⟨hev, hstep, hbusy, hcmd, hless, htrace⟩
    · exact .inr (.inl ⟨hev, hstep, hidle, htrace⟩)
    · exact .inr (.inr hother)
  · unfold State.stepsLeft
    rw [hzero]
    split
    · exact stepsLeft_zero_le _ _
    · decide
  · obtain ⟨-, hdec⟩ := State.running_busy hrun
    refine hi.runsToItsEnd 17 hrun ?_
    rw [State.stepsLeft_of_decode hdec, show (s.port s.stepping).upc = 0 from hzero]
    exact stepsLeft_zero_le _ _

end Sys2Proof.Machine
end

section
/-! SUPPORT. The decoder and the encoder undo each other: a word is its three fields (30_encoding.md R90), and each row
of the opcode map reads exactly the words that carry its own fields (R91 to R93). -/

namespace Sys2Proof

/-! ### A word is its fields -/

theorem Word.append_fields (w : Word) : Word.op w ++ Word.zField w ++ Word.d w = w := by
  have hhigh : Word.op w ++ Word.zField w = w.extractLsb' 8 8 :=
    BitVec.extractLsb'_append_extractLsb'_eq_extractLsb' rfl
  have hword : w.extractLsb' 8 8 ++ Word.d w = w.extractLsb' 0 16 :=
    BitVec.extractLsb'_append_extractLsb'_eq_extractLsb' rfl
  rw [hhigh, hword, BitVec.extractLsb'_eq_self]

theorem Word.eq_iff_fields {v w : Word} :
    v = w ↔ Word.op v = Word.op w ∧ Word.zField v = Word.zField w ∧ Word.d v = Word.d w := by
  refine ⟨by rintro rfl; exact ⟨rfl, rfl, rfl⟩, fun ⟨hop, hz, hd⟩ => ?_⟩
  rw [← Word.append_fields v, hop, hz, hd, Word.append_fields w]

@[simp] theorem Word.op_and (v w : Word) : Word.op (v &&& w) = Word.op v &&& Word.op w := BitVec.extractLsb'_and

@[simp] theorem Word.zField_and (v w : Word) : Word.zField (v &&& w) = Word.zField v &&& Word.zField w :=
  BitVec.extractLsb'_and

@[simp] theorem Word.d_and (v w : Word) : Word.d (v &&& w) = Word.d v &&& Word.d w := BitVec.extractLsb'_and

theorem Word.toNat_op (w : Word) : (w >>> 12).toNat = (Word.op w).toNat := by
  simp only [Word.op, BitVec.toNat_ushiftRight, BitVec.extractLsb'_toNat]
  have hlt : w.toNat >>> 12 < 2 ^ 4 := by omega
  exact (Nat.mod_eq_of_lt hlt).symm

/-! ### The encoder -/

/-- The operand of every command fits its format, and its word carries its fields (30_encoding.md R90, R91). -/
theorem Instr.fields (i : Instr) : Laws.Fields.Statement i := by
  cases i with
  | nop => exact Laws.Fields.nop
  | rd => exact Laws.Fields.rd
  | wr d => exact Laws.Fields.wr d
  | rxpop => exact Laws.Fields.rxpop
  | txpush d => exact Laws.Fields.txpush d
  | rxempty => exact Laws.Fields.rxempty
  | txfull => exact Laws.Fields.txfull
  | fstep d => exact Laws.Fields.fstep d
  | ctlr => exact Laws.Fields.ctlr
  | ctls d => exact Laws.Fields.ctls d
  | ctlc d => exact Laws.Fields.ctlc d
  | stat => exact Laws.Fields.stat
  | cack => exact Laws.Fields.cack
  | ptrr k => exact Laws.Fields.ptrr k

theorem encode_eq_iff {i : Instr} {w : Word} :
    encode i = w ↔ i.opcode = Word.op w ∧ 0 = Word.zField w ∧ i.operand = Word.d w := by
  obtain ⟨-, hop, hz, hd⟩ := i.fields
  rw [Word.eq_iff_fields, hop, hz, hd]

theorem Instr.opcode_lt (i : Instr) : i.opcode.toNat < 0xE := by
  cases i <;> simp [Instr.opcode]

/-! ### The formats -/

theorem Format.admits_z_iff {d : Byte} : Format.z.admits d = true ↔ d = 0 := beq_iff_eq

theorem formatZ_ok {i j : Instr} {d : Byte} : formatZ i d = .ok j ↔ d = 0 ∧ i = j := by
  simp only [formatZ, Format.admits_z_iff]
  split_ifs with h <;> simp only [h, true_and, false_and, Except.ok.injEq]

theorem formatZ_error {i : Instr} {d : Byte} : (∃ e, formatZ i d = .error e) ↔ d ≠ 0 := by
  simp only [formatZ, Format.admits_z_iff]
  split_ifs with h
  · simp [h]
  · exact ⟨fun _ => h, fun _ => ⟨_, rfl⟩⟩

/-- Format S admits the bytes whose five high bits are 0 (30_encoding.md R91). -/
theorem Format.admits_s_iff_mask : ∀ d : Byte, Format.s.admits d = true ↔ d &&& 0xF8 = 0 := by
  decide

theorem Format.admits_s_iff_selector : ∀ d : Byte, Format.s.admits d = true ↔ (d.extractLsb' 0 3).setWidth 8 = d := by
  decide

theorem selector_of_setWidth : ∀ k : BitVec 3, (k.setWidth 8).extractLsb' 0 3 = k := by
  decide

theorem Format.admits_s_iff_exists {d : Byte} : Format.s.admits d = true ↔ ∃ k : BitVec 3, k.setWidth 8 = d := by
  rw [Format.admits_s_iff_selector]
  refine ⟨fun h => ⟨_, h⟩, ?_⟩
  rintro ⟨k, rfl⟩
  rw [selector_of_setWidth]

theorem formatS_ok {mk : BitVec 3 → Instr} {i : Instr} {d : Byte} :
    formatS mk d = .ok i ↔ ∃ k : BitVec 3, k.setWidth 8 = d ∧ mk k = i := by
  constructor
  · intro h
    unfold formatS at h
    split at h
    · exact ⟨_, (Format.admits_s_iff_selector d).mp ‹_›, by injection h⟩
    · cases h
  · rintro ⟨k, rfl, rfl⟩
    rw [formatS, if_pos (Format.admits_s_iff_exists.mpr ⟨k, rfl⟩), selector_of_setWidth]

theorem formatS_error {mk : BitVec 3 → Instr} {d : Byte} : (∃ e, formatS mk d = .error e) ↔ d &&& 0xF8 ≠ 0 := by
  rw [ne_eq, ← Format.admits_s_iff_mask]
  by_cases h : Format.s.admits d = true <;> simp [formatS, h]

/-! ### The decoder -/

/-- A row reads exactly the operand bytes of its commands (30_encoding.md R92). -/
theorem decodeRow_ok {op : BitVec 4} {d : Byte} {i : Instr} :
    decodeRow op.toNat d = .ok i ↔ i.opcode = op ∧ i.operand = d := by
  constructor
  · intro h
    unfold decodeRow at h
    split at h <;> rename_i hop
    case h_3 | h_5 | h_8 | h_10 | h_11 =>
      cases h
      exact ⟨BitVec.eq_of_toNat_eq hop.symm, rfl⟩
    case h_14 =>
      obtain ⟨k, rfl, rfl⟩ := formatS_ok.mp h
      exact ⟨BitVec.eq_of_toNat_eq hop.symm, rfl⟩
    case h_15 => cases h
    all_goals
      obtain ⟨rfl, rfl⟩ := formatZ_ok.mp h
      exact ⟨BitVec.eq_of_toNat_eq hop.symm, rfl⟩
  · rintro ⟨rfl, rfl⟩
    cases i with
    | ptrr k => exact formatS_ok.mpr ⟨k, rfl, rfl⟩
    | _ => rfl

theorem decode_row {w : Word} (hop : (Word.op w).toNat < 0xE) (hz : Word.zField w = 0) :
    decode w = decodeRow (Word.op w).toNat (Word.d w) := by
  rw [decode, if_neg hop.not_ge, if_neg (not_not_intro hz)]

/-- Decoding undoes encoding and nothing else does: a word is read as `i` exactly when it is the word of `i`. -/
theorem decode_ok_iff {w : Word} {i : Instr} : decode w = .ok i ↔ encode i = w := by
  rw [encode_eq_iff]
  constructor
  · intro h
    unfold decode at h
    split_ifs at h with hge hz
    obtain ⟨hop, hd⟩ := decodeRow_ok.mp h
    exact ⟨hop, (not_not.mp hz).symm, hd⟩
  · rintro ⟨hop, hz, hd⟩
    rw [decode_row (hop ▸ i.opcode_lt) hz.symm]
    exact decodeRow_ok.mpr ⟨hop, hd⟩

/-! ### The masks of the opcode map (30_encoding.md R92) -/

theorem decode_ok_iff_mask_z (w : Word) (i : Instr) : w &&& 0xFFFF = encode i ↔ decode w = .ok i := by
  rw [decode_ok_iff, show (0xFFFF : Word) = BitVec.allOnes 16 from rfl, BitVec.and_allOnes, eq_comm]

/-- The masked word of a row: its `op` and `z` as they stand, its `d` under the mask of the format. -/
theorem Word.and_mask_eq_iff {w v m : Word} (hop : Word.op m = BitVec.allOnes 4) (hz : Word.zField m = BitVec.allOnes 4) :
    w &&& m = v ↔ Word.op w = Word.op v ∧ Word.zField w = Word.zField v ∧ Word.d w &&& Word.d m = Word.d v := by
  rw [Word.eq_iff_fields, Word.op_and, Word.zField_and, Word.d_and, hop, hz, BitVec.and_allOnes, BitVec.and_allOnes]

/-- A row of format D: every operand byte is admitted. -/
theorem exists_decode_ok_iff_mask_d (w : Word) (mk : Byte → Instr) (hop : ∀ d, (mk d).opcode = (mk 0).opcode)
    (hd : ∀ d, (mk d).operand = d) : w &&& 0xFF00 = encode (mk 0) ↔ ∃ d, decode w = .ok (mk d) := by
  obtain ⟨-, hop0, hz0, hd0⟩ := (mk 0).fields
  rw [Word.and_mask_eq_iff rfl rfl, hop0, hz0, hd0, hd]
  simp only [decode_ok_iff, encode_eq_iff, hop, hd]
  constructor
  · rintro ⟨hw, hz, -⟩
    exact ⟨_, hw.symm, hz.symm, rfl⟩
  · rintro ⟨d, hw, hz, -⟩
    exact ⟨hw.symm, hz.symm, BitVec.and_zero⟩

/-- The row of format S: the selectors are the bytes admitted. -/
theorem exists_decode_ok_iff_mask_s (w : Word) : w &&& 0xFFF8 = encode (.ptrr 0) ↔ ∃ k, decode w = .ok (.ptrr k) := by
  rw [Word.and_mask_eq_iff rfl rfl]
  simp only [decode_ok_iff, encode_eq_iff]
  have hsel : Word.d w &&& 0xF8 = 0 ↔ ∃ k : BitVec 3, k.setWidth 8 = Word.d w :=
    (Format.admits_s_iff_mask _).symm.trans Format.admits_s_iff_exists
  constructor
  · rintro ⟨hw, hz, hd⟩
    obtain ⟨k, hk⟩ := hsel.mp hd
    exact ⟨k, hw.symm, hz.symm, hk⟩
  · rintro ⟨k, hw, hz, hk⟩
    exact ⟨hw.symm, hz.symm, hsel.mpr ⟨k, hk⟩⟩

/-! ### The illegal words (30_encoding.md R97) -/

/-- The opcodes of format Z. -/
def opcodesZ : List Nat := [0x0, 0x1, 0x3, 0x5, 0x6, 0x8, 0xB, 0xC]

theorem decodeRow_error {op : Nat} {d : Byte} (hop : op < 0xE) :
    (∃ e, decodeRow op d = .error e) ↔ (op ∈ opcodesZ ∧ d ≠ 0) ∨ (op = 0xD ∧ d &&& 0xF8 ≠ 0) := by
  unfold decodeRow
  split
  case h_3 | h_5 | h_8 | h_10 | h_11 => simp [opcodesZ]
  case h_14 => rw [formatS_error]; simp [opcodesZ]
  case h_15 => exfalso; interval_cases op <;> contradiction
  all_goals rw [formatZ_error]; simp [opcodesZ]

theorem Word.and_eq_zero_iff {w m : Word} : w &&& m = 0 ↔
    Word.op w &&& Word.op m = 0 ∧ Word.zField w &&& Word.zField m = 0 ∧ Word.d w &&& Word.d m = 0 := by
  rw [Word.eq_iff_fields, Word.op_and, Word.zField_and, Word.d_and]
  exact Iff.rfl

theorem Word.and_mask_zField (w : Word) : w &&& 0x0F00 = 0 ↔ Word.zField w = 0 :=
  Word.and_eq_zero_iff.trans ⟨fun ⟨_, h, _⟩ => BitVec.and_allOnes.symm.trans h,
    fun h => ⟨BitVec.and_zero, BitVec.and_allOnes.trans h, BitVec.and_zero⟩⟩

theorem Word.and_mask_d {w m : Word} (hop : Word.op m = 0) (hz : Word.zField m = 0) :
    w &&& m = 0 ↔ Word.d w &&& Word.d m = 0 := by
  rw [Word.and_eq_zero_iff, hop, hz]
  exact ⟨fun ⟨_, _, h⟩ => h, fun h => ⟨BitVec.and_zero, BitVec.and_zero, h⟩⟩

theorem decode_error_iff (w : Word) : (∃ e, decode w = .error e) ↔
    14 ≤ (Word.op w).toNat ∨ Word.zField w ≠ 0 ∨
      ((Word.op w).toNat ∈ opcodesZ ∧ Word.d w ≠ 0) ∨ ((Word.op w).toNat = 0xD ∧ Word.d w &&& 0xF8 ≠ 0) := by
  unfold decode
  split
  next hop => exact ⟨fun _ => .inl hop, fun _ => ⟨_, rfl⟩⟩
  next hop =>
    split
    next hz => exact ⟨fun _ => .inr (.inl hz), fun _ => ⟨_, rfl⟩⟩
    next hz => rw [decodeRow_error (not_le.mp hop)]; simp [hop, not_not.mp hz]

end Sys2Proof
end

section
/-! SUPPORT. The micro-step chosen next, and the response each command gives (30_encoding.md R95). -/

namespace Sys2Proof.Machine

/-! ### The micro-step chosen next -/

theorem step_micro_of_script {s : State} {rest : List Event} (hwf : s.cfg.wf = true)
    (hs : s.script = .micro s.stepping :: rest) (hb : s.cur.busy = true) :
    step s = ({ s with script := rest }).runMicro := by
  have hen : s.enabled (.micro s.stepping) = true := by
    have hport : (s.port s.stepping).busy = true := hb
    simp [State.enabled, hport]
  rw [step_of_script hwf hs, State.take, s.setScript_enabled, if_pos hen]
  rfl

theorem State.runMicro_of_error {s : State} {e : DecodeError} (hd : decode s.cur.cmd = .error e) :
    s.runMicro = execIllegal s := by
  simp only [State.runMicro, hd]

theorem State.runMicro_of_ok {s : State} {i : Instr} (hd : decode s.cur.cmd = .ok i) : s.runMicro = exec i s := by
  simp only [State.runMicro, hd]

theorem execIllegal_zero {s : State} (h : s.cur.upc = 0) : execIllegal s = .next (s.respond 0x0200) :=
  single_zero _ h

/-! ### The response words -/

theorem rspData_eq (d : Byte) : rspData d = 0x0100 ||| d.setWidth 16 := rfl

theorem rspBool_eq (v : Bool) : rspBool v = if v then 0x0100 else 0x0000 := by
  cases v <;> rfl

/-- FSTEP answers by the result of the filter (43_filter.md R196). -/
theorem allowedRsp_fstep (s : State) (d : Byte) : allowedRsp s (.fstep d) (fstepRsp (s.filter d).1) := by
  rcases s.filter_cases d with ⟨-, -, h⟩ | ⟨-, -, h⟩ | ⟨-, -, h⟩ | ⟨-, -, h⟩ <;> rw [h]
  · exact .inr (.inr rfl)
  · exact .inl (rspData_eq d)
  · exact .inr (.inl rfl)
  · exact .inl (rspData_eq d)

/-- The choices to come do not change what a command may answer. -/
theorem allowedRsp_setScript {s : State} {l : List Event} {i : Instr} {w : Word}
    (h : allowedRsp { s with script := l } i w) : allowedRsp s i w := by
  cases i <;> exact h

@[simp] theorem State.xlat_rspTrace (s : State) (d : Byte) : (s.xlat d).rspTrace = s.rspTrace := by
  unfold State.xlat
  split <;> simp

/-! ### The commands -/

/-- From `s` to `t` no response is given, or one that the table allows the command `i`. -/
def State.AnswersAs (s : State) (i : Instr) (t : State) : Prop :=
  t.rspTrace = s.rspTrace ∨ allowedRsp s i t.cur.rsp

namespace State.AnswersAs

section
variable {i : Instr} {d : Byte} {s t u : State}

theorem goto {k : BitVec 4} (h : u.rspTrace = s.rspTrace) : s.AnswersAs i (u.goto k) :=
  .inl (by simp [h])

theorem respond {w : Word} (h : allowedRsp s i w) : s.AnswersAs i (u.respond w) :=
  .inr (by simpa using h)

theorem single {w : Word} (hw : allowedRsp s i w) (h : single s (u.respond w) = .next t) : s.AnswersAs i t := by
  obtain ⟨-, rfl⟩ := single_next h
  exact respond hw

theorem loadT {b : RingId} {k : BitVec 4} (h : s.loadT b k = .next t) : s.AnswersAs i t := by
  obtain ⟨v, -, -, rfl⟩ := State.loadT_next h
  exact goto (by simp)

theorem storeThen {b : RingId} {v : Byte} {k : BitVec 4} (h : s.storeThen b v k = .next t) : s.AnswersAs i t := by
  obtain ⟨-, rfl⟩ := State.storeThen_next h
  exact goto (by simp)

theorem pchk {v : State} (h : s.pchk u v = .next t) (hu : s.AnswersAs i u) (hv : s.AnswersAs i v) :
    s.AnswersAs i t := by
  obtain ⟨-, ⟨-, rfl⟩ | ⟨-, rfl⟩⟩ := State.pchk_next h
  · exact hu
  · exact hv

theorem cchk {v : State} (h : s.cchk u v = .next t) (hu : s.AnswersAs i u) (hv : s.AnswersAs i v) :
    s.AnswersAs i t := by
  obtain ⟨-, ⟨-, rfl⟩ | ⟨-, rfl⟩⟩ := State.cchk_next h
  · exact hu
  · exact hv

theorem execTxpush (h : execTxpush d s = .next t) : s.AnswersAs (.txpush d) t := by
  unfold Machine.execTxpush at h
  split at h
  · exact pchk h (respond (.inl rfl)) (goto rfl)
  · exact storeThen h
  · cases h; exact respond (.inr rfl)
  · cases h

theorem execRxpop (h : execRxpop s = .next t) : s.AnswersAs .rxpop t := by
  unfold Machine.execRxpop at h
  split at h
  · exact cchk h (respond (.inl rfl)) (goto rfl)
  · exact loadT h
  · cases h; exact respond (.inr ⟨_, rspData_eq _⟩)
  · cases h

theorem execRd (h : execRd s = .next t) : s.AnswersAs .rd t := by
  unfold Machine.execRd at h
  split at h
  · cases h; exact goto (by simp)
  · exact cchk h (goto rfl) (goto rfl)
  · exact loadT h
  · cases h; exact goto (by simp)
  · cases h; exact respond (.inr ⟨_, rspData_eq _⟩)
  · cases h; exact respond (.inl rfl)
  · cases h

theorem nextByte : s.AnswersAs (.wr d) s.nextByte := by
  unfold State.nextByte
  split
  · exact goto (by simp)
  · exact respond rfl

theorem execWr (h : execWr d s = .next t) : s.AnswersAs (.wr d) t := by
  unfold Machine.execWr at h
  split at h
  case h_4 => exact pchk h (goto rfl) (goto rfl)
  case h_5 => exact storeThen h
  all_goals cases h
  case h_2 => rcases s.filt_cases with hf | hf <;> rw [hf] <;> exact goto (by simp)
  case h_10 => exact nextByte
  all_goals exact goto (by simp)

theorem exec (h : exec i s = .next t) : s.AnswersAs i t := by
  cases i with
  | rd => exact execRd h
  | wr d => exact execWr h
  | rxpop => exact execRxpop h
  | txpush d => exact execTxpush h
  | fstep d => exact single (allowedRsp_fstep s d) h
  | nop => exact single rfl h
  | rxempty | txfull | cack => exact single (rspBool_eq _) h
  | ctlr | ctls | ctlc | stat | ptrr => exact single (rspData_eq _) h

end

end State.AnswersAs

/-- A micro-step of a busy port gives no response, or the one response of R95 (30_encoding.md R94). -/
theorem State.runMicro_response {s t : State} (hb : s.cur.busy = true) (h : s.runMicro = .next t) :
    t.rspTrace = s.rspTrace ∨
    t.rspTrace = s.rspTrace ++ [(s.stepping, t.cur.rsp)] ∧ t.cur.busy = false ∧
      ((∃ i, decode s.cur.cmd = .ok i ∧ allowedRsp s i t.cur.rsp) ∨
        ((∃ e, decode s.cur.cmd = .error e) ∧ t.cur.rsp = 0x0200)) := by
  have hport := (MicroFrame.runMicro h).port_stepping
  rcases State.runMicro_progress hb h with ⟨-, -, -, htrace⟩ | ⟨hidle, htrace⟩
  · exact .inl htrace
  · rw [hport] at hidle htrace
    cases hd : decode s.cur.cmd with
    | ok i =>
      rw [State.runMicro_of_ok hd] at h
      refine (State.AnswersAs.exec h).imp_right fun hrsp => ⟨htrace, hidle, .inl ⟨i, rfl, hrsp⟩⟩
    | error e =>
      rw [State.runMicro_of_error hd] at h
      obtain ⟨-, rfl⟩ := single_next h
      exact .inr ⟨htrace, hidle, .inr ⟨⟨e, rfl⟩, by rw [State.respond_cur]; rfl⟩⟩

end Sys2Proof.Machine
end

section
/-! PROOFS. The statements of 30_encoding.md: the two directions of the round trip, the opcode map, the illegal words and
the table of responses. -/

namespace Sys2Proof.Machine

/-- Settles O1: the word of a command is read as that command, whatever its operand. -/
theorem encodeThenDecode : Obligations.EncodeThenDecode :=
  fun _ _ => decode_ok_iff.mpr rfl

/-- Settles O2: nothing but the word of a command is read as it. -/
theorem decodeThenEncode : Obligations.DecodeThenEncode :=
  fun _ _ => decode_ok_iff.mp

/-- Settles O3: each match is the word of the row's command with operand 0, under the mask of its format. -/
theorem matchAndMaskDecideTheRow : Obligations.MatchAndMaskDecideTheRow := by
  intro w
  have z (i : Instr) := decode_ok_iff_mask_z w i
  have d (mk : Byte → Instr) := exists_decode_ok_iff_mask_d w mk
  exact ⟨z .nop, z .rd, d .wr (fun _ => rfl) (fun _ => rfl), z .rxpop, d .txpush (fun _ => rfl) (fun _ => rfl), z .rxempty,
    z .txfull, d .fstep (fun _ => rfl) (fun _ => rfl), z .ctlr, d .ctls (fun _ => rfl) (fun _ => rfl),
    d .ctlc (fun _ => rfl) (fun _ => rfl), z .stat, z .cack, exists_decode_ok_iff_mask_s w⟩

/-- Settles O4: the illegal words are those whose fields the decoder refuses; acceptance does not look at the word. -/
theorem illegalWordsAnswer0200 : Obligations.IllegalWordsAnswer0200 := by
  refine ⟨fun w => ?_, fun s x w rest hwf hs hx hidle => ?_, fun s e rest hwf hs hb hzero hd => ?_⟩
  · have hd : w &&& 0x00FF = 0 ↔ Word.d w = 0 := by
      rw [Word.and_mask_d rfl rfl, show Word.d 0x00FF = BitVec.allOnes 8 from rfl, BitVec.and_allOnes]
    have hs : w &&& 0x00F8 = 0 ↔ Word.d w &&& 0xF8 = 0 := Word.and_mask_d rfl rfl
    rw [decode_error_iff, Word.toNat_op]
    simp only [ne_eq, Word.and_mask_zField, hd, hs]
    exact Iff.rfl
  · rw [acceptanceWritesThreeLatches s x w rest hwf hs, if_pos ⟨hx, hidle⟩]
  · rw [step_micro_of_script hwf hs hb]
    have hd' : decode ({ s with script := rest }).cur.cmd = .error e := hd
    rw [State.runMicro_of_error hd']
    exact execIllegal_zero hzero

/-- Settles O45: only a micro-step responds, and with a response of its own row. -/
theorem responsesAreThoseOfTheTable : Obligations.ResponsesAreThoseOfTheTable := by
  intro s t h
  rcases step_rests_or_takes h with ⟨⟨l, rfl⟩, -⟩ | ⟨e, hev, he, l, hp⟩
  · exact .inl rfl
  by_cases hmicro : ∃ x, e = .micro x
  · obtain ⟨x, rfl⟩ := hmicro
    obtain ⟨rfl, hb⟩ := State.of_enabled_micro he
    refine (State.runMicro_response (s := { s with script := l }) hb hp).imp_right ?_
    rintro ⟨htrace, hidle, hrsp⟩
    refine ⟨_, hev, htrace, rfl, hidle, hrsp.imp_left ?_⟩
    exact fun ⟨i, hd, hallowed⟩ => ⟨i, hd, allowedRsp_setScript hallowed⟩
  · push Not at hmicro
    have he' : ({ s with script := l }).enabled e = true := (s.setScript_enabled l e).trans he
    exact .inl (State.perform_leaves_busy hmicro he' hp).2

/-- Settles O5: each word is the word of its command. -/
theorem sampleWordsDecode : Obligations.SampleWordsDecode :=
  have read (i : Instr) : decode (encode i) = .ok i := decode_ok_iff.mpr rfl
  ⟨read .nop, read .rd, read (.wr 0x61), read (.txpush 0x41), read (.fstep 0x1B), read (.ctls 0x03), read .cack,
    read (.ptrr 6)⟩

end Sys2Proof.Machine
end

section
/-! SUPPORT. The micro-programs of the raw ring commands and of RD, one equation per micro-step (40_ring.md R135, R137;
42_channel.md R171). -/

namespace Sys2Proof.Machine

/-! ### Reading a word -/

/-- A word put together from its fields is read as the command that has them (30_encoding.md R90). -/
theorem decode_of_fields {i : Instr} {op : BitVec 4} {d : Byte} {w : Word} (hop : i.opcode = op) (hd : i.operand = d)
    (hw : op ++ (0 : BitVec 4) ++ d = w) : decode w = .ok i := by
  subst hop hd hw
  exact decode_ok_iff.mpr rfl

/-! ### The checks, the load and the store -/

/-- A ring end that port F has closed to port A, in the form of the fault rule (60_exceptions.md R230). -/
theorem not_open_of_closed {p : Prop} {b : Bool} (h : p → b = false) : ¬(p ∧ b = true) :=
  fun ⟨hp, hb⟩ => Bool.noConfusion ((h hp).symm.trans hb)

theorem State.fullP_iff {s : State} {b : RingId} : s.fullP b = true ↔ incN (s.cap b) (s.ring b).head = s.tailView b :=
  beq_iff_eq

theorem State.emptyC_iff {s : State} {b : RingId} : s.emptyC b = true ↔ s.headView b = (s.ring b).tail :=
  beq_iff_eq

section
variable {s : State} (u v : State)

theorem State.pchk_of_closed (h : ¬(s.stepping = .a ∧ s.openP = true)) :
    s.pchk u v = .next (if s.fullP .tx then u else v) :=
  if_neg h

theorem State.pchk_of_open (ha : s.stepping = .a) (hopen : s.openP = true) : s.pchk u v = .fault .spscViolation :=
  if_pos ⟨ha, hopen⟩

theorem State.cchk_of_closed (h : ¬(s.stepping = .a ∧ s.openC = true)) :
    s.cchk u v = .next (if s.emptyC .rx then u else v) :=
  if_neg h

theorem State.cchk_of_open (ha : s.stepping = .a) (hopen : s.openC = true) : s.cchk u v = .fault .spscViolation :=
  if_pos ⟨ha, hopen⟩

end

theorem State.loadT_of_read {s : State} {b : RingId} {v : Byte} (h : s.memRead b (s.ring b).tail = .ok v)
    (k : BitVec 4) : s.loadT b k = .next ((s.setCur { s.cur with t := v }).goto k) := by
  rw [State.loadT, State.clod, h, onOk_ok]

theorem State.storeThen_of_lt {s : State} {b : RingId} (h : (s.ring b).head < s.cap b) (v : Byte) (k : BitVec 4) :
    s.storeThen b v k = .next ((s.stored b v).goto k) := by
  rw [State.storeThen, State.psto, State.memWrite_ok.mpr ⟨h, rfl⟩, onOk_ok, State.stored]

/-! ### TXPUSH (40_ring.md R135) -/

section
variable {s : State} (d : Byte)

theorem exec_txpush_zero (h : s.cur.upc = 0) : exec (.txpush d) s = s.pchk (s.respond 0x0000) (s.goto 1) := by
  simp only [exec, execTxpush, h]
  rfl

theorem exec_txpush_one (h : s.cur.upc = 1) (hlt : s.tx.head < s.cfg.nTx) :
    exec (.txpush d) s = .next ((s.stored .tx d).goto 2) := by
  have hstep : exec (.txpush d) s = s.storeThen .tx d 2 := by simp only [exec, execTxpush, h]; rfl
  exact hstep.trans (State.storeThen_of_lt (b := .tx) hlt d 2)

theorem exec_txpush_two (h : s.cur.upc = 2) : exec (.txpush d) s = .next ((s.ppub .tx).respond 0x0100) := by
  simp only [exec, execTxpush, h]
  rfl

end

/-! ### RXPOP (40_ring.md R137) -/

section
variable {s : State}

theorem exec_rxpop_zero (h : s.cur.upc = 0) : exec .rxpop s = s.cchk (s.respond 0x0000) (s.goto 1) := by
  simp only [exec, execRxpop, h]
  rfl

theorem exec_rxpop_one {v : Byte} (h : s.cur.upc = 1) (hread : s.memRead .rx s.rx.tail = .ok v) :
    exec .rxpop s = .next ((s.setCur { s.cur with t := v }).goto 2) := by
  have hstep : exec .rxpop s = s.loadT .rx 2 := by simp only [exec, execRxpop, h]; rfl
  exact hstep.trans (State.loadT_of_read hread 2)

theorem exec_rxpop_two (h : s.cur.upc = 2) :
    exec .rxpop s = .next ((s.crel .rx).respond (0x0100 ||| s.cur.t.setWidth 16)) := by
  simp only [exec, execRxpop, h]
  rfl

/-! ### RD (42_channel.md R171) -/

theorem exec_rd_zero (h : s.cur.upc = 0) : exec .rd s = .next (s.enter.goto 1) := by
  simp only [exec, execRd, h]
  rfl

theorem exec_rd_one (h : s.cur.upc = 1) : exec .rd s = s.cchk (s.goto 5) (s.goto 2) := by
  simp only [exec, execRd, h]
  rfl

theorem exec_rd_two {v : Byte} (h : s.cur.upc = 2) (hread : s.memRead .rx s.rx.tail = .ok v) :
    exec .rd s = .next ((s.setCur { s.cur with t := v }).goto 3) := by
  have hstep : exec .rd s = s.loadT .rx 3 := by simp only [exec, execRd, h]; rfl
  exact hstep.trans (State.loadT_of_read hread 3)

theorem exec_rd_three (h : s.cur.upc = 3) : exec .rd s = .next ((s.crel .rx).goto 4) := by
  simp only [exec, execRd, h]
  rfl

theorem exec_rd_four (h : s.cur.upc = 4) :
    exec .rd s = .next (s.exit.respond (0x0100 ||| s.cur.t.setWidth 16)) := by
  simp only [exec, execRd, h]
  rfl

theorem exec_rd_five (h : s.cur.upc = 5) : exec .rd s = .next (s.exit.respond 0x0000) := by
  simp only [exec, execRd, h]
  rfl

end

end Sys2Proof.Machine
end

section
/-! SUPPORT. What a command that reads, pops or pushes leaves unchanged, whatever its port's other latches hold
(40_ring.md R129 to R133). -/

namespace Sys2Proof.Machine

/-! ### The latches of the answer -/

/-- `t` is `u` but for the index and the answer of the port that may step, and the response trace. -/
structure SameButAnswer (u t : State) : Prop extends SameShared u t where
  sm : t.sm = u.sm
  cur : t.cur = { u.cur with busy := t.cur.busy, upc := t.cur.upc, rsp := t.cur.rsp }

namespace SameButAnswer

theorem goto (s : State) (k : BitVec 4) : SameButAnswer s (s.goto k) :=
  ⟨.goto s k, by simp, by simp⟩

theorem respond (s : State) (w : Word) : SameButAnswer s (s.respond w) :=
  ⟨.respond s w, by simp, by simp⟩

end SameButAnswer

/-! ### The commands that only read -/

/-- A command that only reads answers at once, and does nothing else. -/
theorem exec_reading {i : Instr} {s t : State}
    (hi : i = .nop ∨ i = .ctlr ∨ i = .stat ∨ i = .rxempty ∨ i = .txfull ∨ ∃ k, i = .ptrr k) (h : exec i s = .next t) :
    ∃ w, t = s.respond w := by
  rcases hi with rfl | rfl | rfl | rfl | rfl | ⟨k, rfl⟩ <;> exact ⟨_, (single_next h).2⟩

/-! ### The bracket -/

section
variable {s u : State} (h : u = s.enter ∨ u = s.exit)
include h

theorem State.bracket_rings : u.rx = s.rx ∧ u.tx = s.tx := by
  rcases h with rfl | rfl <;> simp

theorem State.bracket_cur : u.cur = s.cur := by
  rcases h with rfl | rfl <;> simp

theorem State.bracket_flags : u.escf = s.escf ∧ u.cancelPend = s.cancelPend ∧ u.cancelCount = s.cancelCount := by
  rcases h with rfl | rfl <;> simp

/-- Only on port F does a bracket write the mask and its saved copy (42_channel.md R172). -/
theorem State.bracket_mask : s.stepping = .f ∨ (u.sm = s.sm ∧ u.ctrl.imask = s.ctrl.imask) := by
  cases hx : s.stepping with
  | f => exact .inl rfl
  | a => rcases h with rfl | rfl <;> simp [State.enter, State.exit, hx]

theorem State.bracket_enables : u.ctrl = { s.ctrl with imask := u.ctrl.imask } := by
  obtain ⟨hrxie, htxie, hcrlf, -⟩ := State.bracket_ctrl h
  simp only [← hrxie, ← htxie, ← hcrlf]

end

/-! ### The commands that pop -/

/-- What a micro-step of RD or RXPOP writes beside the index and the answer of its port (40_ring.md R137; 42_channel.md
R171). -/
inductive PopEffect (i : Instr) (s : State) : State → Prop
  | none : PopEffect i s s
  | bracket {u : State} (hrd : i = .rd) (h : u = s.enter ∨ u = s.exit) : PopEffect i s u
  | load (v : Byte) : PopEffect i s (s.setCur { s.cur with t := v })
  | release : PopEffect i s (s.crel .rx)

/-- `t` is what an effect of a pop leaves, but for the index and the answer. -/
def PopEffect.Upto (i : Instr) (s t : State) : Prop :=
  ∃ u, PopEffect i s u ∧ SameButAnswer u t

namespace PopEffect

variable {i : Instr} {s t u : State}

theorem cchk {w v : State} (h : s.cchk w v = .next t) (hw : Upto i s w) (hv : Upto i s v) : Upto i s t := by
  obtain ⟨-, ⟨-, rfl⟩ | ⟨-, rfl⟩⟩ := State.cchk_next h
  · exact hw
  · exact hv

theorem loadT {b : RingId} {k : BitVec 4} (h : s.loadT b k = .next t) : Upto i s t := by
  obtain ⟨v, -, -, rfl⟩ := State.loadT_next h
  exact ⟨_, .load v, .goto _ k⟩

theorem execRd (h : execRd s = .next t) : Upto .rd s t := by
  unfold Machine.execRd at h
  split at h
  · cases h; exact ⟨_, .bracket rfl (.inl rfl), .goto _ _⟩
  · exact cchk h ⟨s, .none, .goto _ _⟩ ⟨s, .none, .goto _ _⟩
  · exact loadT h
  · cases h; exact ⟨_, .release, .goto _ _⟩
  · cases h; exact ⟨_, .bracket rfl (.inr rfl), .respond _ _⟩
  · cases h; exact ⟨_, .bracket rfl (.inr rfl), .respond _ _⟩
  · cases h

theorem execRxpop (h : execRxpop s = .next t) : Upto .rxpop s t := by
  unfold Machine.execRxpop at h
  split at h
  · exact cchk h ⟨s, .none, .respond _ _⟩ ⟨s, .none, .goto _ _⟩
  · exact loadT h
  · cases h; exact ⟨_, .release, .respond _ _⟩
  · cases h

theorem exec (hi : i = .rd ∨ i = .rxpop) (h : exec i s = .next t) : Upto i s t := by
  rcases hi with rfl | rfl
  · exact execRd h
  · exact execRxpop h

/-- A pop writes no slot, and of the rings only `RX.tail`. -/
theorem rings (h : PopEffect i s u) : u.tx = s.tx ∧ u.rx = { s.rx with tail := u.rx.tail } := by
  cases h with
  | none | load | release => exact ⟨by simp [State.crel], by simp [State.crel, State.ring]⟩
  | bracket _ hu =>
    obtain ⟨hrx, htx⟩ := State.bracket_rings hu
    exact ⟨htx, by rw [hrx]⟩

theorem storage (h : PopEffect i s u) (b : RingId) : (u.ring b).storage = (s.ring b).storage := by
  obtain ⟨htx, hrx⟩ := h.rings
  cases b
  · rw [State.ring, hrx]; rfl
  · rw [State.ring, htx]; rfl

theorem cur (h : PopEffect i s u) : u.cur = { s.cur with t := u.cur.t } := by
  cases h with
  | none | load | release => simp
  | bracket _ hu => rw [State.bracket_cur hu]

theorem flags (h : PopEffect i s u) :
    u.escf = s.escf ∧ u.cancelPend = s.cancelPend ∧ u.cancelCount = s.cancelCount := by
  cases h with
  | none | load | release => simp
  | bracket _ hu => exact State.bracket_flags hu

theorem enables (h : PopEffect i s u) : u.ctrl = { s.ctrl with imask := u.ctrl.imask } := by
  cases h with
  | none | load | release => simp
  | bracket _ hu => exact State.bracket_enables hu

theorem mask (h : PopEffect i s u) :
    (u.sm = s.sm ∧ u.ctrl.imask = s.ctrl.imask) ∨ (i = .rd ∧ s.stepping = .f) := by
  cases h with
  | none | load | release => simp
  | bracket hrd hu => exact (State.bracket_mask hu).symm.imp_right fun hf => ⟨hrd, hf⟩

end PopEffect

/-! ### The commands that push -/

@[simp] theorem State.filter_sm (s : State) (c : Byte) : (s.filter c).2.sm = s.sm := by
  unfold State.filter
  split_ifs <;> rfl

/-- What a micro-step of TXPUSH or WR writes beside the index and the answer of its port (40_ring.md R135; 42_channel.md
R174). -/
inductive PushEffect (i : Instr) (s : State) : State → Prop
  | none : PushEffect i s s
  | latch (hwr : ∃ d, i = .wr d) (c : Byte) (lf : Bool) : PushEffect i s (s.setCur { s.cur with c := c, lf := lf })
  | filter (hwr : ∃ d, i = .wr d) (c : Byte) : PushEffect i s (s.filter c).2
  | bracket {u : State} (hwr : ∃ d, i = .wr d) (h : u = s.enter ∨ u = s.exit) : PushEffect i s u
  | kick (hwr : ∃ d, i = .wr d) : PushEffect i s s.kick
  | store (v : Byte) (hk : storing i s.cur.upc.toNat = true) : PushEffect i s (s.stored .tx v)
  | publish : PushEffect i s (s.ppub .tx)

/-- `t` is what an effect of a push leaves, but for the index and the answer. -/
def PushEffect.Upto (i : Instr) (s t : State) : Prop :=
  ∃ u, PushEffect i s u ∧ SameButAnswer u t

namespace PushEffect

variable {i : Instr} {d : Byte} {s t u : State}

theorem pchk {w v : State} (h : s.pchk w v = .next t) (hw : Upto i s w) (hv : Upto i s v) : Upto i s t := by
  obtain ⟨-, ⟨-, rfl⟩ | ⟨-, rfl⟩⟩ := State.pchk_next h
  · exact hw
  · exact hv

theorem storeTx {v : Byte} {j : Nat} {k : BitVec 4} (hj : s.cur.upc.toNat = j) (hk : storing i j = true)
    (h : s.storeThen .tx v k = .next t) : Upto i s t := by
  obtain ⟨-, rfl⟩ := State.storeThen_next h
  exact ⟨_, .store v (hj ▸ hk), .goto _ k⟩

theorem xlat (hwr : ∃ d, i = .wr d) : Upto i s ((s.xlat d).goto 1) := by
  unfold State.xlat
  split <;> exact ⟨_, .latch hwr _ _, .goto _ _⟩

theorem filt (hwr : ∃ d, i = .wr d) : Upto i s s.filt := by
  rcases s.filt_cases with hf | hf <;> rw [hf] <;> exact ⟨_, .filter hwr _, .goto _ _⟩

theorem nextByte (hwr : ∃ d, i = .wr d) : Upto i s s.nextByte := by
  unfold State.nextByte
  split
  · exact ⟨_, .latch hwr _ _, .goto _ _⟩
  · exact ⟨s, .none, .respond _ _⟩

theorem execTxpush (h : execTxpush d s = .next t) : Upto (.txpush d) s t := by
  unfold Machine.execTxpush at h
  split at h
  · exact pchk h ⟨s, .none, .respond _ _⟩ ⟨s, .none, .goto _ _⟩
  · exact storeTx (by assumption) rfl h
  · cases h; exact ⟨_, .publish, .respond _ _⟩
  · cases h

theorem execWr (h : execWr d s = .next t) : Upto (.wr d) s t := by
  have hwr : ∃ e, Instr.wr d = .wr e := ⟨d, rfl⟩
  unfold Machine.execWr at h
  split at h
  · cases h; exact xlat hwr
  · cases h; exact filt hwr
  · cases h; exact ⟨_, .bracket hwr (.inl rfl), .goto _ _⟩
  · exact pchk h ⟨s, .none, .goto _ _⟩ ⟨s, .none, .goto _ _⟩
  · exact storeTx (by assumption) rfl h
  · cases h; exact ⟨_, .publish, .goto _ _⟩
  · cases h; exact ⟨_, .bracket hwr (.inr rfl), .goto _ _⟩
  · cases h; exact ⟨_, .bracket hwr (.inr rfl), .goto _ _⟩
  · cases h; exact ⟨_, .kick hwr, .goto _ _⟩
  · cases h; exact nextByte hwr
  · cases h

theorem exec (hi : (∃ d, i = .txpush d) ∨ ∃ d, i = .wr d) (h : exec i s = .next t) : Upto i s t := by
  rcases hi with ⟨d, rfl⟩ | ⟨d, rfl⟩
  · exact execTxpush h
  · exact execWr h

theorem rings (h : PushEffect i s u) :
    u.rx = s.rx ∧ u.tx = { s.tx with storage := u.tx.storage, head := u.tx.head } := by
  cases h with
  | none | latch | filter | kick => simp
  | store | publish => exact ⟨rfl, rfl⟩
  | bracket _ hu =>
    obtain ⟨hrx, htx⟩ := State.bracket_rings hu
    exact ⟨hrx, by rw [htx]⟩

/-- A push changes what a slot reads as only by PSTO, and only at `TX.head` (40_ring.md R129). -/
theorem slot (h : PushEffect i s u) (hcfg : u.cfg = s.cfg) (a : Nat) :
    u.memRead .tx a = s.memRead .tx a ∨ (storing i s.cur.upc.toNat = true ∧ a = s.tx.head) := by
  cases h with
  | store v hk =>
    by_cases ha : a = s.tx.head
    · exact .inr ⟨hk, ha⟩
    · exact .inl (s.stored_memRead_other v fun ⟨_, hhead⟩ => ha hhead)
  | publish => exact .inl (s.ppub_memRead _ _ a)
  | none | latch | filter | kick => exact .inl (State.memRead_congr hcfg (by simp [State.ring]) a)
  | bracket _ hu =>
    have hring : u.ring .tx = s.ring .tx := (State.bracket_rings hu).2
    exact .inl (State.memRead_congr hcfg (congrArg Ring.storage hring) a)

theorem cur (h : PushEffect i s u) : u.cur = { s.cur with c := u.cur.c, lf := u.cur.lf } := by
  cases h with
  | none | latch | filter | kick | store | publish => simp
  | bracket _ hu => rw [State.bracket_cur hu]

theorem enables (h : PushEffect i s u) : u.ctrl = { s.ctrl with txie := u.ctrl.txie, imask := u.ctrl.imask } := by
  cases h with
  | kick => rfl
  | none | latch | filter | store | publish => simp [State.stored]
  | bracket _ hu =>
    obtain ⟨-, htxie, -⟩ := State.bracket_ctrl hu
    rw [htxie]
    exact State.bracket_enables hu

theorem mask (h : PushEffect i s u) :
    ((∃ d, i = .wr d) ∧ s.stepping = .f) ∨ (u.sm = s.sm ∧ u.ctrl.imask = s.ctrl.imask) := by
  cases h with
  | kick => exact .inr ⟨rfl, rfl⟩
  | none | latch | filter | store | publish => simp [State.stored]
  | bracket hwr hu => exact (State.bracket_mask hu).imp_left fun hf => ⟨hwr, hf⟩

/-- Only WR goes through the filter and kicks the transmitter (40_ring.md R135). -/
theorem flags (h : PushEffect i s u) :
    (∃ d, i = .wr d) ∨
    (u.ctrl = s.ctrl ∧ u.escf = s.escf ∧ u.cancelPend = s.cancelPend ∧ u.cancelCount = s.cancelCount) := by
  cases h with
  | latch hwr | filter hwr | bracket hwr | kick hwr => exact .inl hwr
  | none | store | publish => simp [State.stored]

end PushEffect

end Sys2Proof.Machine
end

section
/-! SUPPORT. TXPUSH, RXPOP and RD with nothing between their micro-steps (40_ring.md R126, R128, R131, R138; 42_channel.md
R171, R172). -/

namespace Sys2Proof.Machine

/-! ### Operations on states that share their rings -/

theorem SameShared.stored {s t : State} (h : SameShared s t) (b : RingId) (v : Byte) :
    SameShared (s.stored b v) (t.stored b v) := by
  obtain ⟨hcfg, hrx, htx, hescf, hpend, hcount, hctrl⟩ := h
  cases b <;> constructor <;> simp [State.stored, State.ring, *]

theorem SameShared.ppub {s t : State} (h : SameShared s t) (b : RingId) : SameShared (s.ppub b) (t.ppub b) := by
  obtain ⟨hcfg, hrx, htx, hescf, hpend, hcount, hctrl⟩ := h
  cases b <;> constructor <;> simp [State.ppub, State.ring, State.cap, *]

/-- A push as a whole, PSTO and then PPUB, puts its byte at the new end (40_ring.md R128). -/
theorem RingInv.push_contents {s : State} {b : RingId} (h : RingInv s b) (hroom : s.fullP b = false) (v : Byte) :
    ((s.stored b v).ppub b).contents b = s.contents b ++ [v] := by
  have hread : Memory.read ((s.stored b v).ring b).storage ((s.stored b v).ring b).head = some v := by
    simp [s.stored_ring]
  rw [(h.stored v).ppub_contents (by simpa using hroom) hread, h.stored_contents]

@[simp] theorem State.crel_rx_rx (s : State) :
    (s.crel .rx).rx = { s.rx with tail := incN s.cfg.nRx s.rx.tail } := rfl

@[simp] theorem State.crel_rx_tx (s : State) : (s.crel .rx).tx = s.tx := rfl

/-! ### The two ways a check goes on -/

section
variable {s : State} (u v : State)

theorem State.pchk_of_full (h : ¬(s.stepping = .a ∧ s.openP = true)) (hfull : s.fullP .tx = true) :
    s.pchk u v = .next u := by
  rw [State.pchk_of_closed u v h, if_pos hfull]

theorem State.pchk_of_room (h : ¬(s.stepping = .a ∧ s.openP = true)) (hroom : s.fullP .tx = false) :
    s.pchk u v = .next v := by
  rw [State.pchk_of_closed u v h, hroom, if_neg Bool.false_ne_true]

theorem State.cchk_of_empty (h : ¬(s.stepping = .a ∧ s.openC = true)) (hempty : s.emptyC .rx = true) :
    s.cchk u v = .next u := by
  rw [State.cchk_of_closed u v h, if_pos hempty]

theorem State.cchk_of_data (h : ¬(s.stepping = .a ∧ s.openC = true)) (hdata : s.emptyC .rx = false) :
    s.cchk u v = .next v := by
  rw [State.cchk_of_closed u v h, hdata, if_neg Bool.false_ne_true]

end

/-! ### How a command run alone ends -/

/-- From `s` to `t` the port that may step has ended its command with the one response `w`. -/
structure AnsweredWith (w : Word) (s t : State) : Prop where
  idle : t.cur.busy = false
  rsp : t.cur.rsp = w
  trace : t.rspTrace = s.rspTrace ++ [(s.stepping, w)]

theorem AnsweredWith.respond {s u : State} (w : Word) (hins : u.insvc = s.insvc) (htrace : u.rspTrace = s.rspTrace) :
    AnsweredWith w s (u.respond w) :=
  ⟨by simp, by simp, by simp [htrace, State.stepping_congr hins]⟩

/-! ### TXPUSH -/

section
variable {s : State} (d : Byte) (hb : s.cur.busy = true) (hk : s.cur.upc = 0)
  (hclosed : ¬(s.stepping = .a ∧ s.openP = true))
include hb hk hclosed

theorem runCommand_txpush_full (hfull : s.fullP .tx = true) :
    runCommand (.txpush d) 3 s = .next (s.respond 0x0000) := by
  rw [runCommand_of_next 2 hb ((exec_txpush_zero d hk).trans (State.pchk_of_full _ _ hclosed hfull)),
    runCommand_of_idle 2 (by simp)]

/-- Where there is room, TXPUSH run alone is PSTO and then PPUB. -/
theorem runCommand_txpush_room (hlt : s.tx.head < s.cfg.nTx) (hroom : s.fullP .tx = false) :
    ∃ t, runCommand (.txpush d) 3 s = .next t ∧ SameShared ((s.stored .tx d).ppub .tx) t ∧ MicroFrame s t ∧
      AnsweredWith 0x0100 s t := by
  have h0 : exec (.txpush d) s = .next (s.goto 1) :=
    (exec_txpush_zero d hk).trans (State.pchk_of_room _ _ hclosed hroom)
  have h1 : exec (.txpush d) (s.goto 1) = .next (((s.goto 1).stored .tx d).goto 2) :=
    exec_txpush_one d (by simp) (by simpa using hlt)
  have h2 := exec_txpush_two (s := ((s.goto 1).stored .tx d).goto 2) d (by simp)
  refine ⟨_, ?_, ?_, ((MicroFrame.exec h0).trans (MicroFrame.exec h1)).trans (MicroFrame.exec h2),
    .respond _ (by simp [State.stored]) (by simp [State.stored])⟩
  · rw [runCommand_of_next 2 hb h0, runCommand_of_next 1 (by simpa using hb) h1,
      runCommand_of_next 0 (by simpa using hb) h2, runCommand]
  · exact ((((SameShared.goto s 1).stored .tx d).trans (.goto _ 2)).ppub .tx).trans (.respond _ _)

end

/-! ### RXPOP and RD -/

/-- CLOD of a port that finds `v`, as a change of state: the byte is latched, and the port goes on at `k`. -/
def State.loaded (s : State) (v : Byte) (k : BitVec 4) : State :=
  (s.setCur { s.cur with t := v }).goto k

@[simp] theorem State.loaded_cur (s : State) (v : Byte) (k : BitVec 4) :
    (s.loaded v k).cur = { s.cur with t := v, upc := k } := by
  simp [State.loaded]

/-- From `s` to `t` a pop has answered `w` and left `RX` as `r`; `TX` and `CTRL` are as they were. -/
structure PoppedWith (w : Word) (r : Ring) (s t : State) : Prop extends AnsweredWith w s t where
  rx : t.rx = r
  tx : t.tx = s.tx
  ctrl : t.ctrl = s.ctrl

/-- EXIT undoes ENTER, whatever the port does to its latches and the rings between them (42_channel.md R172). -/
theorem State.exit_ctrl_of_enter {s u : State} (hins : u.insvc = s.insvc) (hsm : u.sm = s.enter.sm)
    (hctrl : u.ctrl = s.enter.ctrl) : u.exit.ctrl = s.ctrl := by
  have hstep := State.stepping_congr hins
  cases hx : s.stepping <;> simp [State.exit, State.enter, hstep, hx, hsm, hctrl]

/-- RXPOP from its load on. -/
theorem runCommand_rxpop_load {s : State} {v : Byte} (hb : s.cur.busy = true) (hk : s.cur.upc = 1)
    (hread : s.memRead .rx s.rx.tail = .ok v) :
    runCommand .rxpop 2 s = .next (((s.loaded v 2).crel .rx).respond (0x0100 ||| v.setWidth 16)) := by
  have hrelease : exec .rxpop (s.loaded v 2) = .next (((s.loaded v 2).crel .rx).respond (0x0100 ||| v.setWidth 16)) := by
    simpa using exec_rxpop_two (s := s.loaded v 2) (by simp)
  rw [runCommand_of_next 1 hb (exec_rxpop_one hk hread)]
  exact runCommand_of_next 0 (by simpa using hb) hrelease

/-- RD from its load on. -/
theorem runCommand_rd_load {s : State} {v : Byte} (hb : s.cur.busy = true) (hk : s.cur.upc = 2)
    (hread : s.memRead .rx s.rx.tail = .ok v) :
    runCommand .rd 3 s = .next ((((s.loaded v 3).crel .rx).goto 4).exit.respond (0x0100 ||| v.setWidth 16)) := by
  have hrelease := exec_rd_three (s := s.loaded v 3) (by simp)
  have hexit : exec .rd (((s.loaded v 3).crel .rx).goto 4) =
      .next ((((s.loaded v 3).crel .rx).goto 4).exit.respond (0x0100 ||| v.setWidth 16)) := by
    simpa using exec_rd_four (s := ((s.loaded v 3).crel .rx).goto 4) (by simp)
  rw [runCommand_of_next 2 hb (exec_rd_two hk hread)]
  exact (runCommand_of_next 1 (by simpa using hb) hrelease).trans (runCommand_of_next 0 (by simpa using hb) hexit)

/-- The check of RD finds what it would have found before ENTER. -/
theorem exec_rd_check {s : State} (hk : s.cur.upc = 0) (hclosed : ¬(s.stepping = .a ∧ s.openC = true)) :
    exec .rd (s.enter.goto 1) =
      .next (if s.emptyC .rx then (s.enter.goto 1).goto 5 else (s.enter.goto 1).goto 2) := by
  have hempty : (s.enter.goto 1).emptyC .rx = s.emptyC .rx :=
    State.emptyC_congr (by simp) (by simp [State.ring])
  have hclosed' : ¬((s.enter.goto 1).stepping = .a ∧ (s.enter.goto 1).openC = true) := fun hopen =>
    hclosed ((MicroFrame.exec (exec_rd_zero hk)).meetsOpenEnd (i := .rd) hopen)
  rw [exec_rd_one (by simp), State.cchk_of_closed _ _ hclosed', hempty]

section
variable {s : State} (hb : s.cur.busy = true) (hk : s.cur.upc = 0) (hclosed : ¬(s.stepping = .a ∧ s.openC = true))
include hb hk hclosed

theorem runCommand_rxpop_empty (hempty : s.emptyC .rx = true) :
    ∃ t, runCommand .rxpop 3 s = .next t ∧ PoppedWith 0x0000 s.rx s t := by
  refine ⟨_, ?_, .respond (u := s) _ rfl rfl, by simp, by simp, by simp⟩
  rw [runCommand_of_next 2 hb ((exec_rxpop_zero hk).trans (State.cchk_of_empty _ _ hclosed hempty)),
    runCommand_of_idle 2 (by simp)]

theorem runCommand_rxpop_data {v : Byte} (hdata : s.emptyC .rx = false) (hread : s.memRead .rx s.rx.tail = .ok v) :
    ∃ t, runCommand .rxpop 3 s = .next t ∧
      PoppedWith (0x0100 ||| v.setWidth 16) { s.rx with tail := incN s.cfg.nRx s.rx.tail } s t := by
  have hcheck := (exec_rxpop_zero hk).trans (State.cchk_of_data (s.respond 0x0000) (s.goto 1) hclosed hdata)
  have hload : (s.goto 1).memRead .rx (s.goto 1).rx.tail = .ok v := by
    rw [State.goto_rx, State.memRead_congr (s := s) (by simp) (by simp [State.ring]), hread]
  refine ⟨_, (runCommand_of_next 2 hb hcheck).trans (runCommand_rxpop_load (by simpa using hb) (by simp) hload),
    .respond _ (by simp [State.loaded]) (by simp [State.loaded]), ?_, ?_, ?_⟩ <;> simp [State.loaded]

theorem runCommand_rd_empty (hempty : s.emptyC .rx = true) :
    ∃ t, runCommand .rd 5 s = .next t ∧ PoppedWith 0x0000 s.rx s t := by
  have hcheck := exec_rd_check hk hclosed
  rw [if_pos hempty] at hcheck
  have hexit := exec_rd_five (s := (s.enter.goto 1).goto 5) (by simp)
  have hrun : runCommand .rd 5 s = .next (((s.enter.goto 1).goto 5).exit.respond 0x0000) := by
    rw [runCommand_of_next 4 hb (exec_rd_zero hk), runCommand_of_next 3 (by simpa using hb) hcheck,
      runCommand_of_next 2 (by simpa using hb) hexit, runCommand_of_idle 2 (by simp)]
  refine ⟨_, hrun, .respond _ (by simp) (by simp), by simp, by simp, ?_⟩
  rw [State.respond_ctrl]
  exact State.exit_ctrl_of_enter (by simp) (by simp) (by simp)

theorem runCommand_rd_data {v : Byte} (hdata : s.emptyC .rx = false) (hread : s.memRead .rx s.rx.tail = .ok v) :
    ∃ t, runCommand .rd 5 s = .next t ∧
      PoppedWith (0x0100 ||| v.setWidth 16) { s.rx with tail := incN s.cfg.nRx s.rx.tail } s t := by
  have hcheck := exec_rd_check hk hclosed
  rw [hdata, if_neg Bool.false_ne_true] at hcheck
  have hload : ((s.enter.goto 1).goto 2).memRead .rx ((s.enter.goto 1).goto 2).rx.tail = .ok v := by
    rw [State.memRead_congr (s := s) (by simp) (by simp [State.ring])]
    simpa using hread
  have hrun := (runCommand_of_next 4 hb (exec_rd_zero hk)).trans
    ((runCommand_of_next 3 (by simpa using hb) hcheck).trans (runCommand_rd_load (by simpa using hb) (by simp) hload))
  refine ⟨_, hrun, .respond _ (by simp [State.loaded]) (by simp [State.loaded]), by simp [State.loaded],
    by simp [State.loaded], ?_⟩
  rw [State.respond_ctrl]
  exact State.exit_ctrl_of_enter (by simp [State.loaded]) (by simp [State.loaded]) (by simp [State.loaded])

end

end Sys2Proof.Machine
end

section
/-! PROOFS. The statements of 40_ring.md: occupancy, the raw ring commands, a push and a pop run alone, and the frames of
the commands that read, pop and push. -/

namespace Sys2Proof.Machine

/-- Settles O35: the equations of TXPUSH, with the full check written out. -/
theorem txpushMicroProgram : Obligations.TxpushMicroProgram := by
  refine ⟨fun d => decode_of_fields (op := 0x4) rfl rfl rfl, fun d s => ⟨fun hk hclosed => ?_,
    fun hk ha hopen => ?_, fun hk hlt => exec_txpush_one d hk hlt, fun hk => exec_txpush_two d hk⟩⟩
  · rw [exec_txpush_zero d hk, State.pchk_of_closed _ _ (not_open_of_closed hclosed)]
    exact congrArg _ (if_congr State.fullP_iff rfl rfl)
  · rw [exec_txpush_zero d hk, State.pchk_of_open _ _ ha hopen]

/-- Settles O36: the equations of RXPOP, with the empty check written out. -/
theorem rxpopMicroProgram : Obligations.RxpopMicroProgram := by
  refine ⟨decode_ok_iff.mpr rfl, fun s => ⟨fun hk hclosed => ?_, fun hk ha hopen => ?_,
    fun v hk hread => exec_rxpop_one hk hread, fun hk => exec_rxpop_two hk⟩⟩
  · rw [exec_rxpop_zero hk, State.cchk_of_closed _ _ (not_open_of_closed hclosed)]
    exact congrArg _ (if_congr State.emptyC_iff rfl rfl)
  · rw [exec_rxpop_zero hk, State.cchk_of_open _ _ ha hopen]

/-- Settles O34: each is one micro-step that answers its check. -/
theorem rxemptyAndTxfullAnswerTheChecks : Obligations.RxemptyAndTxfullAnswerTheChecks := by
  refine ⟨decode_ok_iff.mpr rfl, decode_ok_iff.mpr rfl, fun s hk => ⟨?_, ?_⟩⟩
  · rw [show exec .rxempty s = .next (s.respond (rspBool (s.emptyC .rx))) from single_zero _ hk, rspBool_eq]
    exact congrArg (Host.Outcome.next ∘ s.respond) (if_congr State.emptyC_iff rfl rfl)
  · rw [show exec .txfull s = .next (s.respond (rspBool (s.fullP .tx))) from single_zero _ hk, rspBool_eq]
    exact congrArg (Host.Outcome.next ∘ s.respond) (if_congr State.fullP_iff rfl rfl)

/-- Settles O20: the distance from `tail` to `head` is less than the capacity, 0 at equal pointers and largest one slot
before `tail`. -/
theorem occupancyBounds : Obligations.OccupancyBounds := by
  intro s b hi
  have h := hi.ring b
  have hlap : s.occ b < s.cap b := distN_lt h.cap_pos
  have hfull := distN_eq_last h.tail_lt h.head_lt
  refine ⟨h.length_contents, Nat.le_sub_one_of_lt hlap, (distN_eq_zero h.tail_lt h.head_lt).trans eq_comm, ?_⟩
  rw [← hfull, ← State.occ]
  omega

/-- Settles O46: such a command is one `respond`. -/
theorem readingCommandsFrame : Obligations.ReadingCommandsFrame := by
  intro i s t hi h
  obtain ⟨w, rfl⟩ := exec_reading hi h
  refine ⟨⟨w, s.respond_cur w⟩, s.respond_other w, fun b a => State.memRead_congr (by simp) ?_ a, ?_⟩
  · cases b <;> simp [State.ring]
  · simp

/-- Settles O48: read off the effect of the micro-step; what no micro-step writes is `MicroFrame`. -/
theorem poppingCommandsFrame : Obligations.PoppingCommandsFrame := by
  intro i s t hi h
  have hframe := MicroFrame.exec h
  obtain ⟨u, hu, hut⟩ := PopEffect.exec hi h
  obtain ⟨htx, hrx⟩ := hu.rings
  obtain ⟨hescf, hpend, hcount⟩ := hu.flags
  have hslots (b : RingId) : (t.ring b).storage = (s.ring b).storage := by
    rw [hut.toSameShared.ring b, hu.storage b]
  refine ⟨fun b => State.memRead_congr hframe.cfg (hslots b), hut.tx.trans htx, ?_, ?_, hframe.other,
    hut.escf.trans hescf, hut.cancelPend.trans hpend, hut.cancelCount.trans hcount, ?_, ?_, hframe.insvc, hframe.cfg,
    hframe.script, hframe.txTrace, hframe.rxTrace⟩
  · rw [hut.rx]; exact hrx
  · rw [hut.cur, hu.cur]
  · rw [hut.ctrl]; exact hu.enables
  · rw [hut.sm, hut.ctrl]; exact hu.mask

/-- Settles O49: read off the effect of the micro-step; the one effect that changes a slot is PSTO. -/
theorem pushingCommandsFrame : Obligations.PushingCommandsFrame := by
  intro i s t hi h
  have hframe := MicroFrame.exec h
  obtain ⟨u, hu, hut⟩ := PushEffect.exec hi h
  obtain ⟨hrx, htx⟩ := hu.rings
  have hread (a : Nat) : t.memRead .tx a = s.memRead .tx a ∨ (storing i s.cur.upc.toNat = true ∧ a = s.tx.head) := by
    rw [State.memRead_congr hut.cfg (congrArg Ring.storage (hut.toSameShared.ring .tx)) a]
    exact hu.slot (hut.cfg.symm.trans hframe.cfg) a
  refine ⟨fun a ha => ?_, fun a => ?_, fun hone hfour a => ?_, hut.rx.trans hrx, ?_, ?_, hframe.other, ?_, ?_, ?_,
    hframe.insvc, hframe.cfg, hframe.script, hframe.txTrace, hframe.rxTrace⟩
  · exact (hread a).resolve_right fun ⟨_, hhead⟩ => ha hhead
  · have hring : t.ring .rx = s.ring .rx := hut.rx.trans hrx
    exact State.memRead_congr hframe.cfg (congrArg Ring.storage hring) a
  · refine (hread a).resolve_right fun ⟨hk, _⟩ => ?_
    rcases storing_iff.mp hk with ⟨⟨d, rfl⟩, hupc⟩ | ⟨-, hupc⟩
    · rcases hone with hne | ⟨e, he⟩
      · exact hne hupc
      · cases he
    · exact hfour hupc
  · rw [hut.tx]; exact htx
  · rw [hut.cur, hu.cur]
  · rw [hut.ctrl]; exact hu.enables
  · rw [hut.sm, hut.ctrl]; exact hu.mask
  · rw [hut.ctrl, hut.escf, hut.cancelPend, hut.cancelCount]; exact hu.flags

/-- Settles O40: run alone, TXPUSH answers at its check or is a whole push. -/
theorem txpushAloneIsPush : Obligations.TxpushAloneIsPush := by
  intro d s hi hrun hk hopen
  obtain ⟨hb, -⟩ : s.cur.busy = true ∧ _ := State.running_busy hrun
  have hclosed : ¬(s.stepping = .a ∧ s.openP = true) := not_open_of_closed hopen
  refine ⟨runCommand_txpush_full d hb hk hclosed, fun hroom => ?_⟩
  obtain ⟨t, ht, hsame, hframe, hans⟩ := runCommand_txpush_room d hb hk hclosed hi.tx_ok.head_lt hroom
  have hcontents : t.contents .tx = s.contents .tx ++ [d] :=
    (State.contents_congr hsame.cfg (hsame.ring .tx)).trans (hi.tx_ok.push_contents hroom d)
  exact ⟨t, ht, hcontents, hans.trace, hans.idle, hsame.rx, hsame.ctrl, hsame.escf, hsame.cancelPend, hframe.txTail,
    hframe.other⟩

/-- Settles O41: run alone, RD and RXPOP pop alike, and the bracket of RD leaves no trace in `CTRL`. -/
theorem rdAloneIsPop : Obligations.RdAloneIsPop := by
  intro s hb hk hopen
  have hclosed : ¬(s.stepping = .a ∧ s.openC = true) := not_open_of_closed hopen
  refine ⟨fun hempty => ?_, fun v hdata hread => ?_⟩
  · obtain ⟨t, ht, hrd⟩ := runCommand_rd_empty hb hk hclosed hempty
    obtain ⟨u, hu, hpop⟩ := runCommand_rxpop_empty hb hk hclosed hempty
    exact ⟨t, u, ht, hu, hrd.rsp, hrd.idle, hpop.rsp, hpop.idle, hrd.rx, hpop.rx, hrd.ctrl, hpop.ctrl, hrd.tx, hrd.trace,
      hpop.trace.trans hrd.trace.symm⟩
  · obtain ⟨t, ht, hrd⟩ := runCommand_rd_data hb hk hclosed hdata hread
    obtain ⟨u, hu, hpop⟩ := runCommand_rxpop_data hb hk hclosed hdata hread
    exact ⟨t, u, ht, hu, hrd.rsp, hrd.idle, hpop.rsp.trans hrd.rsp.symm, hpop.idle, hrd.rx, hpop.rx.trans hrd.rx.symm,
      hrd.ctrl, hpop.ctrl, hrd.tx, hrd.trace, hpop.trace.trans hrd.trace.symm⟩

end Sys2Proof.Machine
end

section
/-! SUPPORT. Gray code (41_sync.md R155 to R157) as exclusive-or algebra: `bin2gray` is linear, the fold of `gray2bin`
telescopes against it in both directions, and a value and its successor differ in a run of low bits. -/

namespace Sys2Proof.Machine

/-! ### The bits of the code and its inverse -/

theorem getLsbD_bin2gray {w : Nat} (p : BitVec w) (i : Nat) :
    (bin2gray p).getLsbD i = (p.getLsbD (i + 1) ^^ p.getLsbD i) := by
  simp [bin2gray, Nat.add_comm 1, Bool.xor_comm]

theorem bin2gray_xor {w : Nat} (p q : BitVec w) : bin2gray (p ^^^ q) = bin2gray p ^^^ bin2gray q := by
  rw [bin2gray, BitVec.ushiftRight_xor_distrib, bin2gray, bin2gray]
  ac_rfl

/-- The first `n` terms of the fold of `gray2bin`. -/
def grayFold {w : Nat} (g : BitVec w) (n : Nat) : BitVec w :=
  (List.range n).foldl (fun acc k => acc ^^^ (g >>> k)) 0

theorem gray2bin_eq_grayFold {w : Nat} (g : BitVec w) : gray2bin g = grayFold g w := rfl

theorem grayFold_zero {w : Nat} (g : BitVec w) : grayFold g 0 = 0 := rfl

theorem grayFold_succ {w : Nat} (g : BitVec w) (n : Nat) : grayFold g (n + 1) = grayFold g n ^^^ g >>> n := by
  simp [grayFold, List.range_succ]

/-- The terms between the first and the last cancel. -/
theorem xor_telescope {w : Nat} (a b c : BitVec w) : a ^^^ b ^^^ (b ^^^ c) = a ^^^ c := by
  rw [BitVec.xor_assoc, ← BitVec.xor_assoc b b c, BitVec.xor_self, BitVec.zero_xor]

theorem bin2gray_grayFold {w : Nat} (g : BitVec w) (n : Nat) : bin2gray (grayFold g n) = g ^^^ g >>> n := by
  induction n with
  | zero => simp [grayFold_zero, bin2gray]
  | succ n ih =>
    have hterm : bin2gray (g >>> n) = g >>> n ^^^ g >>> (n + 1) := by rw [bin2gray, BitVec.shiftRight_add]
    rw [grayFold_succ, bin2gray_xor, ih, hterm, xor_telescope]

theorem grayFold_bin2gray {w : Nat} (p : BitVec w) (n : Nat) : grayFold (bin2gray p) n = p ^^^ p >>> n := by
  induction n with
  | zero => simp [grayFold_zero]
  | succ n ih =>
    have hterm : bin2gray p >>> n = p >>> n ^^^ p >>> (n + 1) := by
      rw [bin2gray, BitVec.ushiftRight_xor_distrib, ← BitVec.shiftRight_add, Nat.add_comm 1 n]
    rw [grayFold_succ, ih, hterm, xor_telescope]

theorem bin2gray_gray2bin {w : Nat} (g : BitVec w) : bin2gray (gray2bin g) = g := by
  rw [gray2bin_eq_grayFold, bin2gray_grayFold, BitVec.ushiftRight_eq_zero le_rfl, BitVec.xor_zero]

theorem gray2bin_bin2gray {w : Nat} (p : BitVec w) : gray2bin (bin2gray p) = p := by
  rw [gray2bin_eq_grayFold, grayFold_bin2gray, BitVec.ushiftRight_eq_zero le_rfl, BitVec.xor_zero]

/-! ### A value and its successor -/

/-- A carry runs through the low ones and stops at the lowest zero: the bits up to there change, no other. -/
theorem testBit_xor_succ (n : Nat) : ∃ i, ∀ k, (n ^^^ (n + 1)).testBit k = decide (k ≤ i) := by
  induction n using Nat.strong_induction_on with
  | _ n ih =>
    have hlow : (n ^^^ (n + 1)).testBit 0 = true := by
      rw [Nat.testBit_zero, decide_eq_true_eq, Nat.xor_mod_two_eq]
      omega
    have hhigh (k : Nat) : (n ^^^ (n + 1)).testBit (k + 1) = (n / 2 ^^^ (n + 1) / 2).testBit k := by
      rw [Nat.testBit_succ, Nat.xor_div_two]
    rcases Nat.even_or_odd' n with ⟨m, rfl | rfl⟩
    · refine ⟨0, fun k => ?_⟩
      cases k with
      | zero => exact hlow
      | succ k => rw [hhigh, show (2 * m + 1) / 2 = 2 * m / 2 by omega]; simp
    · obtain ⟨i, hi⟩ := ih m (by omega)
      refine ⟨i + 1, fun k => ?_⟩
      cases k with
      | zero => exact hlow
      | succ k =>
        rw [hhigh, show (2 * m + 1) / 2 = m by omega, show (2 * m + 1 + 1) / 2 = m + 1 by omega, hi]
        simp

/-- At width `W` the run of changed bits ends at the top bit at the latest, where the value wraps. -/
theorem getLsbD_xor_add_one {w : Nat} (hw : 0 < w) (p : BitVec w) :
    ∃ i < w, ∀ k < w, (p ^^^ (p + 1)).getLsbD k = decide (k ≤ i) := by
  obtain ⟨i, hi⟩ := testBit_xor_succ p.toNat
  refine ⟨min i (w - 1), by omega, fun k hk => ?_⟩
  have hsucc : (p + 1).getLsbD k = (p.toNat + 1).testBit k := by
    simp [BitVec.getLsbD, BitVec.toNat_add, hk]
  rw [BitVec.getLsbD_xor, hsucc, BitVec.getLsbD, ← Nat.testBit_xor, hi, decide_eq_decide]
  omega

/-- The code of a run of low bits is its top bit alone. -/
theorem bin2gray_eq_twoPow {w i : Nat} {m : BitVec w} (hi : i < w) (hm : ∀ k < w, m.getLsbD k = decide (k ≤ i)) :
    bin2gray m = BitVec.twoPow w i := by
  apply BitVec.eq_of_getLsbD_eq
  intro k hk
  have hnext : m.getLsbD (k + 1) = decide (k + 1 ≤ i) := by
    by_cases hlt : k + 1 < w
    · exact hm _ hlt
    · rw [BitVec.getLsbD_of_ge _ _ (by omega), decide_eq_false (by omega)]
  rw [getLsbD_bin2gray, hnext, hm k hk, BitVec.getLsbD_twoPow, Bool.eq_iff_iff]
  simp only [bne_iff_ne, ne_eq, decide_eq_decide, Bool.and_eq_true, decide_eq_true_eq]
  omega

/-- The codes of a value and of its successor modulo `2^W` (41_sync.md R157). -/
theorem bin2gray_xor_add_one {w : Nat} (hw : 0 < w) (p : BitVec w) :
    ∃ i < w, bin2gray p ^^^ bin2gray (p + 1) = BitVec.twoPow w i := by
  obtain ⟨i, hi, hrun⟩ := getLsbD_xor_add_one hw p
  exact ⟨i, hi, by rw [← bin2gray_xor, bin2gray_eq_twoPow hi hrun]⟩

end Sys2Proof.Machine
end

section
/-! SUPPORT. The step of a synchroniser (41_sync.md R158): when it is enabled, and what it does to its view. -/

namespace Sys2Proof.Machine

@[simp] theorem Ring.setViewReg_viewReg (r : Ring) (p : PtrSel) (v : Nat) : (r.setViewReg p v).viewReg p = v := by
  cases p <;> rfl

@[simp] theorem Ring.setViewReg_pointer (r : Ring) (p q : PtrSel) (v : Nat) :
    (r.setViewReg p v).pointer q = r.pointer q := by
  cases p <;> cases q <;> rfl

theorem State.enabled_syn_iff {s : State} {b : RingId} {p : PtrSel} {k : Nat} (hl : s.cfg.sync.lagged = true) :
    s.enabled (.syn b p k) = true ↔ (s.ring b).viewReg p ≠ (s.ring b).pointer p ∧ 1 ≤ k ∧ k ≤ s.lag b p := by
  simp [State.enabled, hl, and_assoc]

/-- In `DIRECT` no synchroniser has a step (41_sync.md R153). -/
theorem State.enabled_syn_direct {s : State} (hl : s.cfg.sync.lagged = false) (b : RingId) (p : PtrSel) (k : Nat) :
    s.enabled (.syn b p k) = false := by
  simp [State.enabled, hl]

theorem State.synStep_viewReg (s : State) (b : RingId) (p : PtrSel) (k : Nat) :
    ((s.synStep b p k).ring b).viewReg p = ((s.ring b).viewReg p + k) % s.cap b := by
  rw [s.synStep_ring, Ring.setViewReg_viewReg]

/-- A step of `k`, not past the pointer, lessens the lag by `k`. -/
theorem State.synStep_lag {s : State} {b : RingId} {p : PtrSel} {k : Nat} (hv : (s.ring b).viewReg p < s.cap b)
    (hp : (s.ring b).pointer p < s.cap b) (hk : k ≤ s.lag b p) : (s.synStep b p k).lag b p = s.lag b p - k := by
  have hstep := distN_add_left hv hp hk
  rw [State.lag, State.synStep_viewReg, s.synStep_ring, Ring.setViewReg_pointer, State.synStep_cap]
  exact Nat.eq_sub_of_add_eq hstep

/-- The rings do not depend on the choices to come. -/
theorem State.setScript_ring (s : State) (l : List Event) (b : RingId) :
    ({ s with script := l }).ring b = s.ring b := by
  cases b <;> rfl

theorem State.setScript_lag (s : State) (l : List Event) (b : RingId) (p : PtrSel) :
    ({ s with script := l }).lag b p = s.lag b p := by
  cases b <;> rfl

end Sys2Proof.Machine
end

section
/-! PROOFS. The statements of 41_sync.md: views that lag, the step of a synchroniser, `DIRECT`, gray code and PTRR. -/

namespace Sys2Proof.Machine

/-- Settles O19: the four pointers stand in order within one lap, so each view leaves out a stretch and adds none. -/
theorem staleViewsErrSafely : Obligations.StaleViewsErrSafely := by
  intro s b hi
  have h := hi.ring b
  have hseen : s.occ b ≤ distN (s.cap b) (s.tailView b) (s.ring b).head := by rw [h.seen_eq]; omega
  have hocc : distN (s.cap b) (s.ring b).tail (s.headView b) ≤ s.occ b := by rw [h.occ_eq]; omega
  refine ⟨hseen, hocc, fun hroom => h.incN_head_ne hroom h.tail_lt hseen, fun hdata => (h.tail_ne_head hdata).symm,
    fun hcaught => ?_⟩
  obtain ⟨hhead, htail⟩ : s.headView b = (s.ring b).head ∧ s.tailView b = (s.ring b).tail := by
    simpa [State.caughtUp] using hcaught
  have hlast : s.occ b + 1 = s.cap b ↔ _ := distN_eq_last h.tail_lt h.head_lt
  have hzero : s.occ b = 0 ↔ _ := distN_eq_zero h.tail_lt h.head_lt
  rw [State.fullP_iff, htail, ← hlast, State.emptyC_iff, hhead, hzero]
  have hpos := h.cap_pos
  exact ⟨by omega, eq_comm⟩

/-- Settles O24: the choice is enabled exactly under the stated condition, and then it is one `synStep`. -/
theorem synMovesTheViewForward : Obligations.SynMovesTheViewForward := by
  intro s b p k rest hwf hlag hs hview hptr
  have hen : ({ s with script := rest }).enabled (.syn b p k) = true ↔
      (s.ring b).viewReg p ≠ (s.ring b).pointer p ∧ 1 ≤ k ∧ k ≤ s.lag b p := by
    rw [State.setScript_enabled, State.enabled_syn_iff hlag]
  have hring := s.setScript_ring rest b
  rw [step_of_script hwf hs, State.take]
  refine ⟨fun hk => ?_, fun hk => if_neg (mt hen.mp hk)⟩
  have ⟨_, _, hle⟩ := hk
  refine ⟨({ s with script := rest }).synStep b p k, if_pos (hen.mpr hk), ?_, ?_, ?_⟩
  · rw [State.synStep, hring]
    rfl
  · rw [State.synStep_viewReg]
    exact Nat.mod_lt _ (Nat.zero_lt_of_lt hview)
  · rw [← s.setScript_lag rest] at hle ⊢
    exact State.synStep_lag (by rwa [hring]) (by rwa [hring]) hle

/-- Settles O26: the two functions undo each other, so the bits of `gray2bin g` are read off its code, which is `g`. -/
theorem grayCodeIsUndone : Obligations.GrayCodeIsUndone := by
  refine ⟨fun w p i _ => getLsbD_bin2gray p i, fun w g i _ => ?_, fun w p => gray2bin_bin2gray p⟩
  have hbit : g.getLsbD i = ((gray2bin g).getLsbD (i + 1) ^^ (gray2bin g).getLsbD i) := by
    rw [← getLsbD_bin2gray, bin2gray_gray2bin]
  rw [hbit, ← Bool.xor_assoc, Bool.xor_self, Bool.false_xor]

/-- Settles O27: at a power of two `incN` is the sum with 1, whose carry changes a run of low bits. -/
theorem grayNeighboursDifferInOneBit : Obligations.GrayNeighboursDifferInOneBit := by
  refine ⟨fun w p hw => ?_, by decide, by decide, by decide⟩
  rw [ofNat_incN_two_pow p.isLt, BitVec.ofNat_toNat, BitVec.setWidth_eq]
  exact bin2gray_xor_add_one hw p

/-- Settles O25: with the views equal to the pointers each check is the comparison of the pointers. -/
theorem directViewsAreThePointers : Obligations.DirectViewsAreThePointers := by
  intro s b hdirect
  have hlag : s.cfg.sync.lagged = false := by rw [hdirect]; rfl
  obtain ⟨hhead, htail⟩ := State.views_direct hlag b
  refine ⟨hhead, htail, ?_, ?_, State.enabled_syn_direct hlag b⟩
  · rw [State.emptyC_iff, hhead]
  · rw [State.fullP_iff, htail]

/-- Settles O33: PTRR is one `respond`, and its value is the row of the table that the selector names. -/
theorem ptrrReadsThePointer : Obligations.PtrrReadsThePointer := by
  refine ⟨fun k => decode_of_fields (op := 0xD) rfl rfl ?_, fun s hk =>
    ⟨fun k => ?_, rfl, rfl, rfl, rfl, rfl, rfl, rfl, rfl⟩⟩
  · revert k
    decide
  · rw [show exec (.ptrr k) s = .next (s.respond (rspData (s.ptrrValue k))) from single_zero _ hk, rspData_eq]

end Sys2Proof.Machine
end

section
/-! SUPPORT. The micro-program of WR, one equation per micro-step (42_channel.md R172, R174). -/

namespace Sys2Proof.Machine

/-! ### The bracket, the translation and the filter, each as one choice -/

theorem State.enter_eq (s : State) :
    s.enter = if s.stepping = .f then { s with sm := s.ctrl.imask, ctrl := { s.ctrl with imask := true } } else s := by
  unfold State.enter
  cases s.stepping <;> rfl

theorem State.exit_eq (s : State) :
    s.exit = if s.stepping = .f then { s with ctrl := { s.ctrl with imask := s.sm } } else s := by
  unfold State.exit
  cases s.stepping <;> rfl

/-- The port has `c` in hand, with a line feed to follow or not, and goes on at FILT. -/
def State.inHand (s : State) (c : Byte) (lf : Bool) : State :=
  (s.setCur { s.cur with c := c, lf := lf }).goto 1

section
variable (s : State) (c : Byte) (lf : Bool)

@[simp] theorem State.inHand_cur : (s.inHand c lf).cur = { s.cur with c := c, lf := lf, upc := 1 } := by
  simp [State.inHand]

@[simp] theorem State.inHand_sm : (s.inHand c lf).sm = s.sm := by
  simp [State.inHand]

@[simp] theorem State.inHand_rspTrace : (s.inHand c lf).rspTrace = s.rspTrace := by
  simp [State.inHand]

theorem SameShared.inHand : SameShared s (s.inHand c lf) :=
  (SameShared.setCur s _).trans (.goto _ 1)

theorem MicroFrame.inHand : MicroFrame s (s.inHand c lf) :=
  (MicroFrame.setCur s _).trans (.goto _ 1)

end

/-- Only a line feed, and only with translation on, is written as two bytes (42_channel.md R176). -/
theorem State.xlat_of_lf {s : State} {d : Byte} (h : d = 0x0A ∧ s.ctrl.crlf = true) :
    (s.xlat d).goto 1 = s.inHand 0x0D true :=
  congrArg (State.goto · 1) (if_pos h)

theorem State.xlat_of_plain {s : State} {d : Byte} (h : ¬(d = 0x0A ∧ s.ctrl.crlf = true)) :
    (s.xlat d).goto 1 = s.inHand d false :=
  congrArg (State.goto · 1) (if_neg h)

/-- FILT in the four cases of the filter (43_filter.md R191). -/
theorem State.filt_eq (s : State) :
    s.filt =
      if s.escf = true then
        if s.cur.c = s.cfg.cancelChar then
          { s with escf := false, cancelPend := true, cancelCount := s.cancelCount + 1 }.goto 9
        else { s with escf := false }.goto 2
      else if s.cur.c = s.cfg.escChar then { s with escf := true }.goto 9
      else s.goto 2 := by
  unfold State.filt State.filter
  split_ifs <;> rfl

theorem State.nextByte_of_lf {s : State} (h : s.cur.lf = true) :
    s.nextByte = s.inHand 0x0A false :=
  if_pos h

theorem State.nextByte_of_last {s : State} (h : s.cur.lf = false) : s.nextByte = s.respond 0x0000 :=
  if_neg (by simp [h])

/-! ### WR (42_channel.md R174) -/

section
variable {s : State} (d : Byte)

theorem exec_wr_zero (h : s.cur.upc = 0) : exec (.wr d) s = .next ((s.xlat d).goto 1) := by
  simp only [exec, execWr, h]
  rfl

theorem exec_wr_one (h : s.cur.upc = 1) : exec (.wr d) s = .next s.filt := by
  simp only [exec, execWr, h]
  rfl

theorem exec_wr_two (h : s.cur.upc = 2) : exec (.wr d) s = .next (s.enter.goto 3) := by
  simp only [exec, execWr, h]
  rfl

theorem exec_wr_three (h : s.cur.upc = 3) : exec (.wr d) s = s.pchk (s.goto 7) (s.goto 4) := by
  simp only [exec, execWr, h]
  rfl

theorem exec_wr_four (h : s.cur.upc = 4) (hlt : s.tx.head < s.cfg.nTx) :
    exec (.wr d) s = .next ((s.stored .tx s.cur.c).goto 5) := by
  have hstep : exec (.wr d) s = s.storeThen .tx s.cur.c 5 := by simp only [exec, execWr, h]; rfl
  exact hstep.trans (State.storeThen_of_lt (b := .tx) hlt s.cur.c 5)

theorem exec_wr_five (h : s.cur.upc = 5) : exec (.wr d) s = .next ((s.ppub .tx).goto 6) := by
  simp only [exec, execWr, h]
  rfl

theorem exec_wr_six (h : s.cur.upc = 6) : exec (.wr d) s = .next (s.exit.goto 8) := by
  simp only [exec, execWr, h]
  rfl

theorem exec_wr_seven (h : s.cur.upc = 7) : exec (.wr d) s = .next (s.exit.goto 9) := by
  simp only [exec, execWr, h]
  rfl

theorem exec_wr_eight (h : s.cur.upc = 8) : exec (.wr d) s = .next (s.kick.goto 9) := by
  simp only [exec, execWr, h]
  rfl

theorem exec_wr_nine (h : s.cur.upc = 9) : exec (.wr d) s = .next s.nextByte := by
  simp only [exec, execWr, h]
  rfl

end

end Sys2Proof.Machine
end

section
/-! SUPPORT. Micro-steps in a row, and the atomic functions that WR run alone is compared with: what they depend on, and
what they leave (42_channel.md R174 to R180). -/

namespace Sys2Proof.Machine

/-! ### The index is read by nothing but the micro-step

Each operation reads only which port may step, so the proofs split on `insvc`. -/

section
variable (s : State) (j k : BitVec 4) (b : RingId) (v : Byte)

theorem State.goto_goto : (s.goto j).goto k = s.goto k := by
  rcases s with ⟨_, _, _, _, _, _ | _⟩ <;> rfl

theorem State.goto_stored : (s.goto k).stored b v = (s.stored b v).goto k := by
  rcases s with ⟨_, _, _, _, _, _ | _⟩ <;> cases b <;> rfl

theorem State.goto_ppub : (s.goto k).ppub b = (s.ppub b).goto k := by
  rcases s with ⟨_, _, _, _, _, _ | _⟩ <;> cases b <;> rfl

theorem State.goto_exit : (s.goto k).exit = s.exit.goto k := by
  rcases s with ⟨_, _, _, _, _, _ | _⟩ <;> rfl

theorem State.goto_kick : (s.goto k).kick = s.kick.goto k := by
  rcases s with ⟨_, _, _, _, _, _ | _⟩ <;> rfl

end

/-! ### Micro-steps in a row -/

/-- From `s` to `t` in `n` micro-steps of the command `i`, nothing between them. -/
inductive MicroRun (i : Instr) : Nat → State → State → Prop
  | done (s : State) : MicroRun i 0 s s
  | step {n : Nat} {s t u : State} (hb : s.cur.busy = true) (h : exec i s = .next t) (hrest : MicroRun i n t u) :
    MicroRun i (n + 1) s u

namespace MicroRun

variable {i : Instr} {n m : Nat} {s t u : State}

theorem single (hb : s.cur.busy = true) (h : exec i s = .next t) : MicroRun i 1 s t :=
  .step hb h (.done t)

theorem trans (h : MicroRun i n s t) (h' : MicroRun i m t u) : MicroRun i (n + m) s u := by
  induction h with
  | done s => rwa [Nat.zero_add]
  | step hb hexec _ ih => rw [Nat.succ_add]; exact .step hb hexec (ih h')

theorem frame (h : MicroRun i n s t) : MicroFrame s t := by
  induction h with
  | done s => exact .refl s
  | step _ hexec _ ih => exact (MicroFrame.exec hexec).trans ih

/-- A command that has answered after `n` micro-steps ran for just these, however many more were allowed. -/
theorem ends (h : MicroRun i n s t) (hidle : t.cur.busy = false) (k : Nat) :
    runCommand i (n + k) s = .next t ∧ countSteps i (n + k) s = n := by
  induction h with
  | done s => cases k <;> simp [runCommand, countSteps, hidle]
  | step hb hexec _ ih => simp [Nat.succ_add, runCommand, countSteps, hb, hexec, ih hidle]

end MicroRun

/-! ### The atomic functions -/

@[simp] theorem State.kick_ctrl (s : State) : s.kick.ctrl = { s.ctrl with txie := true } := rfl

theorem SameShared.kick {s t : State} (h : SameShared s t) : SameShared s.kick t.kick := by
  obtain ⟨hcfg, hrx, htx, hescf, hpend, hcount, hctrl⟩ := h
  constructor <;> simp [*]

theorem State.pushOrDrop_of_full {s : State} (h : s.fullP .tx = true) (c : Byte) : s.pushOrDrop c = s :=
  if_pos (State.fullP_iff.mp h)

theorem State.pushOrDrop_of_room {s : State} (h : s.fullP .tx = false) (c : Byte) :
    s.pushOrDrop c = ((s.stored .tx c).ppub .tx).kick :=
  if_neg (State.fullP_eq_false.mp h)

theorem SameShared.pushOrDrop {s t : State} (h : SameShared s t) (c : Byte) :
    SameShared (s.pushOrDrop c) (t.pushOrDrop c) := by
  cases hfull : s.fullP .tx with
  | true => rwa [State.pushOrDrop_of_full hfull, State.pushOrDrop_of_full (h.fullP.trans hfull)]
  | false =>
    rw [State.pushOrDrop_of_room hfull, State.pushOrDrop_of_room (h.fullP.trans hfull)]
    exact ((h.stored .tx c).ppub .tx).kick

/-- What the filter does depends on nothing but the shared state. -/
theorem SameShared.filter {s t : State} (h : SameShared s t) (c : Byte) :
    (t.filter c).1 = (s.filter c).1 ∧ SameShared (s.filter c).2 (t.filter c).2 := by
  obtain ⟨hcfg, hrx, htx, hescf, hpend, hcount, hctrl⟩ := h
  simp only [State.filter, hcfg, hescf]
  split_ifs <;> exact ⟨rfl, by constructor <;> simp [State.raiseCancel, *]⟩

/-- The filter swallows a byte or passes it on to the push, and so does the atomic write (43_filter.md R191;
42_channel.md R175). -/
theorem State.writeByte_cases (s : State) (c : Byte) :
    ((∀ b, (s.filter c).1 ≠ .lit b) ∧ s.writeByte c = (s.filter c).2 ∧ s.writeCost c = 2) ∨
    ((s.filter c).1 = .lit c ∧ s.writeByte c = (s.filter c).2.pushOrDrop c ∧
      s.writeCost c = if s.fullP .tx = true then 5 else 8) := by
  have hfull : s.fullP .tx = true ↔ incN s.cfg.nTx s.tx.head = s.tailView .tx := State.fullP_iff
  rcases s.filter_cases c with ⟨he, hc, h⟩ | ⟨he, hc, h⟩ | ⟨he, hc, h⟩ | ⟨he, hc, h⟩ <;> rw [h] <;>
    simp [State.writeByte, State.writeCost, State.raiseCancel, he, hc, hfull]

theorem State.filt_of_swallowed {s : State} (h : ∀ b, (s.filter s.cur.c).1 ≠ .lit b) :
    s.filt = (s.filter s.cur.c).2.goto 9 := by
  unfold State.filt
  split <;> simp_all

theorem State.filt_of_lit {s : State} (h : (s.filter s.cur.c).1 = .lit s.cur.c) :
    s.filt = (s.filter s.cur.c).2.goto 2 := by
  unfold State.filt
  split <;> simp_all

theorem SameShared.writeByte {s t : State} (h : SameShared s t) (c : Byte) :
    SameShared (s.writeByte c) (t.writeByte c) ∧ t.writeCost c = s.writeCost c := by
  obtain ⟨hres, hsame⟩ := h.filter c
  rcases s.writeByte_cases c with ⟨hs, hw, hcost⟩ | ⟨hs, hw, hcost⟩ <;>
    rcases t.writeByte_cases c with ⟨ht, hw', hcost'⟩ | ⟨ht, hw', hcost'⟩
  · exact ⟨hw ▸ hw' ▸ hsame, hcost'.trans hcost.symm⟩
  · exact absurd (hres.symm.trans ht) (hs c)
  · exact absurd (hres.trans hs) (ht c)
  · exact ⟨hw ▸ hw' ▸ hsame.pushOrDrop c, by rw [hcost', hcost, h.fullP]⟩

/-- Beside what the filter does, a write is a push with its kick, or nothing (42_channel.md R178, R180). -/
theorem State.writeByte_pushes (s : State) (c : Byte) :
    s.writeByte c = (s.filter c).2 ∨ s.writeByte c = (((s.filter c).2.stored .tx c).ppub .tx).kick := by
  rcases s.writeByte_cases c with ⟨-, hw, -⟩ | ⟨-, hw, -⟩ <;> rw [hw]
  · exact .inl rfl
  · cases hfull : (s.filter c).2.fullP .tx with
    | true => exact .inl (State.pushOrDrop_of_full hfull c)
    | false => exact .inr (State.pushOrDrop_of_room hfull c)

theorem State.writeByte_head_lt {s : State} (h : s.tx.head < s.cfg.nTx) (c : Byte) :
    (s.writeByte c).tx.head < s.cfg.nTx := by
  rcases s.writeByte_pushes c with hw | hw <;> rw [hw]
  · simpa using h
  · have hinc : incN s.cfg.nTx s.tx.head < s.cfg.nTx := incN_lt (Nat.zero_lt_of_lt h)
    simpa [State.stored, State.ppub, State.ring, State.cap, Config.cap] using hinc

theorem State.writeByte_imask (s : State) (c : Byte) : (s.writeByte c).ctrl.imask = s.ctrl.imask := by
  rcases s.writeByte_pushes c with hw | hw <;> simp [hw, State.stored]

theorem State.writeByte_rx (s : State) (c : Byte) : (s.writeByte c).rx = s.rx := by
  rcases s.writeByte_pushes c with hw | hw <;> simp [hw, State.stored, State.ppub]

theorem State.writeChar_rx (s : State) (d : Byte) : (s.writeChar d).rx = s.rx := by
  unfold State.writeChar
  split <;> simp only [State.writeByte_rx]

theorem State.writeChar_imask (s : State) (d : Byte) : (s.writeChar d).ctrl.imask = s.ctrl.imask := by
  unfold State.writeChar
  split <;> simp only [State.writeByte_imask]

theorem State.writeCost_cases (s : State) (c : Byte) : s.writeCost c = 2 ∨ s.writeCost c = 5 ∨ s.writeCost c = 8 := by
  unfold State.writeCost
  split_ifs <;> simp

/-- The micro-steps of a WR of `d` run alone (42_channel.md R175). -/
def State.writeCharCost (s : State) (d : Byte) : Nat :=
  if d = 0x0A ∧ s.ctrl.crlf = true then 1 + s.writeCost 0x0D + (s.writeByte 0x0D).writeCost 0x0A
  else 1 + s.writeCost d

theorem State.writeCharCost_le (s : State) (d : Byte) : s.writeCharCost d ≤ 17 := by
  have hfirst := s.writeCost_cases 0x0D
  have hsecond := (s.writeByte 0x0D).writeCost_cases 0x0A
  have honly := s.writeCost_cases d
  unfold State.writeCharCost
  split <;> omega

end Sys2Proof.Machine
end

section
/-! SUPPORT. WR with nothing between its micro-steps: the byte in hand goes through the filter and the push as one
atomic write, and the command is one or two such writes (42_channel.md R172, R174 to R180). -/

namespace Sys2Proof.Machine

/-! ### The copy of the mask -/

/-- From `s` to `t` the copy of the mask is as it was, or port F has saved the mask in it (42_channel.md R172). -/
def State.SavesMask (s t : State) : Prop :=
  t.sm = s.sm ∨ (s.stepping = .f ∧ t.sm = s.ctrl.imask)

theorem State.SavesMask.trans {s t u : State} (h : s.SavesMask t) (h' : t.SavesMask u) (hins : t.insvc = s.insvc)
    (hmask : t.ctrl.imask = s.ctrl.imask) : s.SavesMask u := by
  rw [State.SavesMask, State.stepping_congr hins, hmask] at h'
  rcases h' with hsm | hsaved
  · rwa [State.SavesMask, hsm]
  · exact .inr hsaved

theorem State.enter_savesMask (s : State) : s.SavesMask s.enter := by
  rw [State.enter_eq]
  split
  · exact .inr ⟨by assumption, rfl⟩
  · exact .inl rfl

/-! ### One byte, from the filter to NEXT -/

@[simp] theorem State.filter_stepping (s : State) (c : Byte) : (s.filter c).2.stepping = s.stepping :=
  State.stepping_congr (MicroFrame.filter s c).insvc

/-- From `s` the port has come to NEXT in `u` without an answer, its other latches as they were, and the shared state is
that of `w`. -/
structure AtNext (w s u : State) : Prop where
  shared : SameShared w u
  cur : u.cur = { s.cur with upc := 9 }
  mask : s.SavesMask u
  trace : u.rspTrace = s.rspTrace

theorem AtNext.dropped (s : State) : AtNext s s (s.enter.exit.goto 9) where
  shared := by
    have hctrl : s.enter.exit.ctrl = s.ctrl := State.exit_ctrl_of_enter (by simp) rfl rfl
    constructor <;> simp [hctrl]
  cur := by simp
  mask := by simpa [State.SavesMask] using s.enter_savesMask
  trace := by simp

theorem AtNext.pushed (s : State) (c : Byte) :
    AtNext ((s.stored .tx c).ppub .tx).kick s (((s.enter.stored .tx c).ppub .tx).exit.kick.goto 9) where
  shared := by
    have hctrl : ((s.enter.stored .tx c).ppub .tx).exit.ctrl = s.ctrl :=
      State.exit_ctrl_of_enter (by simp [State.stored]) (by simp [State.stored]) (by simp [State.stored])
    refine .trans (SameShared.kick ?_) (.goto _ 9)
    constructor <;> simp [hctrl] <;> simp [State.stored, State.ppub, State.ring, State.cap]
  cur := by simp
  mask := by simpa [State.SavesMask, State.stored] using s.enter_savesMask
  trace := by simp [State.stored]

/-- What the port does after the filter, it does after it from `s`. -/
theorem AtNext.of_filter {w s u : State} {c : Byte} {k : BitVec 4} (h : AtNext w ((s.filter c).2.goto k) u) :
    AtNext w s u where
  shared := h.shared
  cur := by simpa using h.cur
  mask := by simpa [State.SavesMask] using h.mask
  trace := by simpa using h.trace

section
variable {d : Byte} {s : State} (hb : s.cur.busy = true) (hclosed : ¬s.meetsOpenEnd (.wr d))

include hb hclosed

/-- From ENTER to the check, which finds what it would have found before. -/
theorem microRun_wr_check (hk : s.cur.upc = 2) :
    MicroRun (.wr d) 2 s (s.enter.goto (if s.fullP .tx then 7 else 4)) := by
  have henter := exec_wr_two d hk
  have hclosed' := mt (MicroFrame.exec henter).meetsOpenEnd hclosed
  have hfull : (s.enter.goto 3).fullP .tx = s.fullP .tx := State.fullP_congr (by simp) (by simp [State.ring])
  have hcheck : exec (.wr d) (s.enter.goto 3) = .next (s.enter.goto (if s.fullP .tx then 7 else 4)) := by
    rw [exec_wr_three d (by simp), State.pchk_of_closed _ _ hclosed', hfull, State.goto_goto, State.goto_goto,
      apply_ite s.enter.goto]
  exact .step hb henter (.single (by simpa using hb) hcheck)

/-- A byte that finds no room takes u2, u3 and u7, and is dropped. -/
theorem microRun_wr_full (hk : s.cur.upc = 2) (hfull : s.fullP .tx = true) :
    MicroRun (.wr d) 3 s (s.enter.exit.goto 9) := by
  have hcheck := microRun_wr_check hb hclosed hk
  rw [if_pos hfull] at hcheck
  have hexit := exec_wr_seven (s := s.enter.goto 7) d (by simp)
  rw [State.goto_exit, State.goto_goto] at hexit
  exact hcheck.trans (.single (by simpa using hb) hexit)

/-- A byte that finds room takes u2 to u6 and u8, and is pushed. -/
theorem microRun_wr_room (hk : s.cur.upc = 2) (hlt : s.tx.head < s.cfg.nTx) (hroom : s.fullP .tx = false) :
    MicroRun (.wr d) 6 s (((s.enter.stored .tx s.cur.c).ppub .tx).exit.kick.goto 9) := by
  have hcheck := microRun_wr_check hb hclosed hk
  rw [hroom, if_neg Bool.false_ne_true] at hcheck
  have hstore := exec_wr_four (s := s.enter.goto 4) d (by simp) (by simpa using hlt)
  have hpublish := exec_wr_five (s := (s.enter.stored .tx s.cur.c).goto 5) d (by simp)
  have hexit := exec_wr_six (s := ((s.enter.stored .tx s.cur.c).ppub .tx).goto 6) d (by simp)
  have hkick := exec_wr_eight (s := ((s.enter.stored .tx s.cur.c).ppub .tx).exit.goto 8) d (by simp)
  simp only [State.goto_stored, State.goto_ppub, State.goto_exit, State.goto_kick, State.goto_goto, State.goto_cur,
    State.enter_cur] at hstore hpublish hexit hkick
  exact hcheck.trans (.step (by simpa using hb) hstore (.step (by simpa using hb) hpublish
    (.step (by simpa using hb) hexit (.single (by simpa using hb) hkick))))

/-- From ENTER on, the byte in hand is pushed or dropped. -/
theorem microRun_wr_push (hk : s.cur.upc = 2) (hlt : s.tx.head < s.cfg.nTx) :
    ∃ u, MicroRun (.wr d) (if s.fullP .tx = true then 3 else 6) s u ∧ AtNext (s.pushOrDrop s.cur.c) s u := by
  cases hfull : s.fullP .tx with
  | true =>
    rw [State.pushOrDrop_of_full hfull]
    exact ⟨_, microRun_wr_full hb hclosed hk hfull, .dropped s⟩
  | false =>
    rw [State.pushOrDrop_of_room hfull]
    exact ⟨_, microRun_wr_room hb hclosed hk hlt hfull, .pushed s s.cur.c⟩

/-- From the filter to NEXT, the byte in hand is written; NEXT is the one micro-step of its cost still to come. -/
theorem microRun_wr_byte (hk : s.cur.upc = 1) (hlt : s.tx.head < s.cfg.nTx) :
    ∃ n u, s.writeCost s.cur.c = n + 1 ∧ MicroRun (.wr d) n s u ∧ AtNext (s.writeByte s.cur.c) s u := by
  have hfilt := exec_wr_one d hk
  rcases s.writeByte_cases s.cur.c with ⟨hres, hw, hcost⟩ | ⟨hres, hw, hcost⟩ <;> rw [hw, hcost]
  · rw [State.filt_of_swallowed hres] at hfilt
    exact ⟨1, _, rfl, .single hb hfilt, .goto _ 9, by simp, .inl (by simp), by simp⟩
  · rw [State.filt_of_lit hres] at hfilt
    have hclosed' := mt (MicroFrame.exec hfilt).meetsOpenEnd hclosed
    obtain ⟨u, hrun, hnext⟩ := microRun_wr_push (by simpa using hb) hclosed' (by simp) (by simpa using hlt)
    have hfull : ((s.filter s.cur.c).2.goto 2).fullP .tx = s.fullP .tx :=
      State.fullP_congr (by simp) (by simp [State.ring])
    have hcur : ((s.filter s.cur.c).2.goto 2).cur.c = s.cur.c := by simp
    have hpush := (SameShared.goto (s.filter s.cur.c).2 2).pushOrDrop s.cur.c
    rw [hcur] at hnext
    rw [hfull] at hrun
    have hnext' := AtNext.of_filter hnext
    refine ⟨_, u, ?_, .step hb hfilt hrun, { hnext' with shared := hpush.trans hnext'.shared }⟩
    split <;> rfl

end

/-! ### The whole command -/

/-- From `s` to `t` a WR has written what `w` has written, and has answered. -/
structure WroteAs (w s t : State) : Prop extends AnsweredWith 0x0000 s t where
  shared : SameShared w t
  mask : s.SavesMask t
  lf : t.cur.lf = false

/-- What is written from `u` is written from `s`, when the micro-steps from `s` to `u` gave no answer. -/
theorem WroteAs.of_start {w s u t : State} (h : WroteAs w u t) (hmask : s.SavesMask u) (hins : u.insvc = s.insvc)
    (himask : u.ctrl.imask = s.ctrl.imask) (htrace : u.rspTrace = s.rspTrace) : WroteAs w s t where
  idle := h.idle
  rsp := h.rsp
  trace := by rw [h.trace, htrace, State.stepping_congr hins]
  shared := h.shared
  mask := hmask.trans h.mask hins himask
  lf := h.lf

theorem WroteAs.of_inHand {w s t : State} {c : Byte} {lf : Bool} (h : WroteAs w (s.inHand c lf) t) : WroteAs w s t :=
  h.of_start (.inl (by simp)) (MicroFrame.inHand s c lf).insvc (congrArg Ctrl.imask (SameShared.inHand s c lf).ctrl)
    (by simp)

section
variable {d : Byte} {s : State} (hb : s.cur.busy = true) (hclosed : ¬s.meetsOpenEnd (.wr d))
  (hlt : s.tx.head < s.cfg.nTx)
include hb hclosed hlt

/-- The last byte of a WR, from the filter to the answer. -/
theorem microRun_wr_last (hk : s.cur.upc = 1) (hlf : s.cur.lf = false) :
    ∃ t, MicroRun (.wr d) (s.writeCost s.cur.c) s t ∧ WroteAs (s.writeByte s.cur.c) s t := by
  obtain ⟨n, u, hcost, hrun, hnext⟩ := microRun_wr_byte hb hclosed hk hlt
  have hanswer := exec_wr_nine (s := u) d (by rw [hnext.cur])
  rw [State.nextByte_of_last (by rw [hnext.cur]; exact hlf)] at hanswer
  rw [hcost]
  exact ⟨_, hrun.trans (.single (by rw [hnext.cur]; exact hb) hanswer),
    { toAnsweredWith := .respond _ hrun.frame.insvc hnext.trace
      shared := hnext.shared.trans (.respond _ _)
      mask := by simpa [State.SavesMask] using hnext.mask
      lf := by simpa [hnext.cur] using hlf }⟩

/-- A carriage return and then the line feed, from the filter to the answer (42_channel.md R177). -/
theorem microRun_wr_both (hk : s.cur.upc = 1) (hlf : s.cur.lf = true) :
    ∃ t, MicroRun (.wr d) (s.writeCost s.cur.c + (s.writeByte s.cur.c).writeCost 0x0A) s t ∧
      WroteAs ((s.writeByte s.cur.c).writeByte 0x0A) s t := by
  obtain ⟨n, u, hcost, hrun, hnext⟩ := microRun_wr_byte hb hclosed hk hlt
  have hagain := exec_wr_nine (s := u) d (by rw [hnext.cur])
  rw [State.nextByte_of_lf (by rw [hnext.cur]; exact hlf)] at hagain
  have hfirst := hrun.trans (.single (by rw [hnext.cur]; exact hb) hagain)
  have hsame : SameShared (s.writeByte s.cur.c) (u.inHand 0x0A false) := hnext.shared.trans (.inHand u _ _)
  have hhead : (u.inHand 0x0A false).tx.head < s.cfg.nTx := by rw [hsame.tx]; exact State.writeByte_head_lt hlt _
  obtain ⟨t, hsecond, hwrote⟩ := microRun_wr_last (by simpa [hnext.cur] using hb)
    (mt hfirst.frame.meetsOpenEnd hclosed) (hfirst.frame.cfg ▸ hhead) (by simp) (by simp)
  obtain ⟨hwrite, hcost'⟩ := hsame.writeByte 0x0A
  have himask : (u.inHand 0x0A false).ctrl.imask = s.ctrl.imask := by rw [hsame.ctrl, State.writeByte_imask]
  rw [State.inHand_cur] at hsecond hwrote
  have hlast : WroteAs ((s.writeByte s.cur.c).writeByte 0x0A) _ t :=
    { hwrote with shared := hwrite.trans hwrote.shared }
  rw [hcost'] at hsecond
  refine ⟨t, hcost ▸ hfirst.trans hsecond, hlast.of_start ?_ hfirst.frame.insvc himask ?_⟩
  · simpa [State.SavesMask] using hnext.mask
  · simpa using hnext.trace

/-- WR run alone is the atomic write of its character, in the micro-steps of its cost (42_channel.md R174 to R176). -/
theorem microRun_wr (hk : s.cur.upc = 0) :
    ∃ t, MicroRun (.wr d) (s.writeCharCost d) s t ∧ WroteAs (s.writeChar d) s t := by
  have hxlat := exec_wr_zero d hk
  have hbusy (c : Byte) (lf : Bool) : (s.inHand c lf).cur.busy = true := by simpa using hb
  have hclosed' (c : Byte) (lf : Bool) := mt (MicroFrame.inHand s c lf).meetsOpenEnd hclosed
  have hhead (c : Byte) (lf : Bool) : (s.inHand c lf).tx.head < (s.inHand c lf).cfg.nTx := by
    rw [(SameShared.inHand s c lf).tx, (SameShared.inHand s c lf).cfg]
    exact hlt
  by_cases htwo : d = 0x0A ∧ s.ctrl.crlf = true
  · rw [State.writeCharCost, State.writeChar, if_pos htwo, if_pos htwo, Nat.add_assoc, Nat.add_comm]
    rw [State.xlat_of_lf htwo] at hxlat
    obtain ⟨t, hrun, hwrote⟩ := microRun_wr_both (hbusy 0x0D true) (hclosed' _ _) (hhead _ _) (by simp) (by simp)
    obtain ⟨hfirst, hcost⟩ := (SameShared.inHand s 0x0D true).writeByte 0x0D
    obtain ⟨hsecond, hcost'⟩ := hfirst.writeByte 0x0A
    rw [State.inHand_cur] at hrun hwrote
    rw [hcost, hcost'] at hrun
    exact ⟨t, .step hb hxlat hrun, { hwrote.of_inHand with shared := hsecond.trans hwrote.shared }⟩
  · rw [State.writeCharCost, State.writeChar, if_neg htwo, if_neg htwo, Nat.add_comm]
    rw [State.xlat_of_plain htwo] at hxlat
    obtain ⟨t, hrun, hwrote⟩ := microRun_wr_last (hbusy d false) (hclosed' _ _) (hhead _ _) (by simp) (by simp)
    obtain ⟨hwrite, hcost⟩ := (SameShared.inHand s d false).writeByte d
    rw [State.inHand_cur] at hrun hwrote
    rw [hcost] at hrun
    exact ⟨t, .step hb hxlat hrun, { hwrote.of_inHand with shared := hwrite.trans hwrote.shared }⟩

end

/-- Within 17 micro-steps WR has ended as the atomic write of its character, and it has taken its cost of them. -/
theorem runCommand_wr {d : Byte} {s : State} (hb : s.cur.busy = true) (hk : s.cur.upc = 0)
    (hlt : s.tx.head < s.cfg.nTx) (hopen : s.stepping = .a → s.openP = false) :
    ∃ t, runCommand (.wr d) 17 s = .next t ∧ countSteps (.wr d) 17 s = s.writeCharCost d ∧ MicroFrame s t ∧
      WroteAs (s.writeChar d) s t := by
  obtain ⟨t, hrun, hwrote⟩ := microRun_wr (d := d) hb (not_open_of_closed hopen) hlt hk
  obtain ⟨hend, hcount⟩ := hrun.ends hwrote.idle (17 - s.writeCharCost d)
  rw [Nat.add_sub_cancel' (s.writeCharCost_le d)] at hend hcount
  exact ⟨t, hend, hcount, hrun.frame, hwrote⟩

end Sys2Proof.Machine
end

section
/-! PROOFS. The statements of 42_channel.md: the micro-programs of RD and WR, and WR run alone. -/

namespace Sys2Proof.Machine

/-- Settles O42: the run of WR alone, read field by field; what no micro-step writes is `MicroFrame`. -/
theorem wrAloneIsAtomicWrite : Obligations.WrAloneIsAtomicWrite := by
  intro d s hb hk hlt hopen
  obtain ⟨t, ht, -, hframe, hwrote⟩ := runCommand_wr (d := d) hb hk hlt hopen
  have hsame := hwrote.shared
  have himask : t.ctrl.imask = s.ctrl.imask := by rw [hsame.ctrl, State.writeChar_imask]
  have hrx : t.rx = s.rx := by rw [hsame.rx, State.writeChar_rx]
  exact ⟨t, ht, hsame.tx, hsame.escf, hsame.cancelPend, hsame.cancelCount, hsame.ctrl, himask, hrx, hframe.insvc,
    hframe.cfg, hframe.script, hframe.txTrace, hframe.rxTrace, hframe.other, hwrote.mask, hwrote.rsp, hwrote.idle,
    hwrote.lf, hwrote.trace⟩

/-- Settles O43: the run of WR alone takes its cost, and each byte costs 2, 5 or 8. -/
theorem wrMicroStepCounts : Obligations.WrMicroStepCounts := by
  intro d s hb hk hlt hopen
  obtain ⟨-, -, hcount, -, -⟩ := runCommand_wr (d := d) hb hk hlt hopen
  rw [hcount]
  refine ⟨fun htwo => ?_, fun hone => ?_⟩
  · have hcost : s.writeCharCost d = 1 + s.writeCost 0x0D + (s.writeByte 0x0D).writeCost 0x0A := if_pos htwo
    have hfirst := s.writeCost_cases 0x0D
    have hsecond := (s.writeByte 0x0D).writeCost_cases 0x0A
    exact ⟨hcost, by omega, s.writeCharCost_le d⟩
  · have hcost : s.writeCharCost d = 1 + s.writeCost d := if_neg hone
    have hbyte := s.writeCost_cases d
    exact ⟨hcost, by omega⟩

/-- Settles O37: the equations of RD, with the empty check and the bracket written out. -/
theorem rdMicroProgram : Obligations.RdMicroProgram := by
  refine ⟨decode_ok_iff.mpr rfl, fun s => ⟨fun hk => ?_, fun hk hclosed => ?_, fun hk ha hopen => ?_,
    fun v hk hread => exec_rd_two hk hread, fun hk => exec_rd_three hk, fun hk => ?_, fun hk => ?_⟩⟩
  · rw [exec_rd_zero hk, State.enter_eq]
  · rw [exec_rd_one hk, State.cchk_of_closed _ _ (not_open_of_closed hclosed)]
    exact congrArg _ (if_congr State.emptyC_iff rfl rfl)
  · rw [exec_rd_one hk, State.cchk_of_open _ _ ha hopen]
  · rw [exec_rd_four hk, State.exit_eq]
  · rw [exec_rd_five hk, State.exit_eq]

/-- Settles O38: the equations of WR, with the filter, the full check and the bracket written out. -/
theorem wrMicroProgram : Obligations.WrMicroProgram := by
  refine ⟨fun d => decode_of_fields (op := 0x2) rfl rfl rfl, fun d s => ⟨fun hk => ?_, fun hk => ?_, fun hk => ?_,
    fun hk hclosed => ?_, fun hk ha hopen => ?_, fun hk hlt => exec_wr_four d hk hlt, fun hk => exec_wr_five d hk,
    fun hk => ?_, fun hk => ?_, fun hk => exec_wr_eight d hk, fun hk => ?_⟩⟩
  · rw [exec_wr_zero d hk]
    split
    · rw [State.xlat_of_lf (by assumption), State.inHand]
    · rw [State.xlat_of_plain (by assumption), State.inHand]
  · rw [exec_wr_one d hk, State.filt_eq]
  · rw [exec_wr_two d hk, State.enter_eq]
  · rw [exec_wr_three d hk, State.pchk_of_closed _ _ (not_open_of_closed hclosed)]
    exact congrArg _ (if_congr State.fullP_iff rfl rfl)
  · rw [exec_wr_three d hk, State.pchk_of_open _ _ ha hopen]
  · rw [exec_wr_six d hk, State.exit_eq]
  · rw [exec_wr_seven d hk, State.exit_eq]
  · rw [exec_wr_nine d hk]
    rfl

end Sys2Proof.Machine
end

section
/-! SUPPORT. The commands of one micro-step that write a flag or a control bit: the four cases of the filter one by one,
FSTEP and CACK as equations (43_filter.md R191, R196, R200), and what each command of the kind writes before it answers
(44_control.md R211, R212). -/

namespace Sys2Proof.Machine

/-! ### The four cases of the filter (43_filter.md R191, R193) -/

section
variable {s : State} {c : Byte}

theorem State.filter_of_cancel (he : s.escf = true) (hc : c = s.cfg.cancelChar) :
    s.filter c = (.cancel, { s with escf := false }.raiseCancel) := by
  rw [State.filter, if_pos he, if_pos hc]

theorem State.filter_of_escaped (he : s.escf = true) (hc : c ≠ s.cfg.cancelChar) :
    s.filter c = (.lit c, { s with escf := false }) := by
  rw [State.filter, if_pos he, if_neg hc]

theorem State.filter_of_marker (he : s.escf = false) (hc : c = s.cfg.escChar) :
    s.filter c = (.none, { s with escf := true }) := by
  rw [State.filter, if_neg (by simp [he]), if_pos hc]

theorem State.filter_of_plain (he : s.escf = false) (hc : c ≠ s.cfg.escChar) : s.filter c = (.lit c, s) := by
  rw [State.filter, if_neg (by simp [he]), if_neg hc]

end

/-! ### FSTEP and CACK (43_filter.md R196, R200) -/

section
variable {s : State}

theorem exec_fstep_zero (d : Byte) (h : s.cur.upc = 0) :
    exec (.fstep d) s = .next ((s.filter d).2.respond (fstepRsp (s.filter d).1)) :=
  single_zero _ h

/-- FSTEP goes on and answers by the result of the filter. -/
theorem exec_fstep_of_filter {d : Byte} {r : FilterResult} {u : State} (h : s.cur.upc = 0) (hf : s.filter d = (r, u)) :
    exec (.fstep d) s = .next (u.respond (fstepRsp r)) := by
  rw [exec_fstep_zero d h, hf]

theorem exec_cack_zero (h : s.cur.upc = 0) :
    exec .cack s = .next ({ s with cancelPend := false }.respond (rspBool s.cancelPend)) :=
  single_zero _ h

end

/-! ### What CTLS, CTLC, FSTEP and CACK write -/

/-- What command `i` writes before it answers: CTLS and CTLC `CTRL`, FSTEP the flags of the filter, CACK `CANCEL_PEND`
(43_filter.md R196, R200; 44_control.md R211, R212). -/
inductive FlagEffect (i : Instr) (s : State) : State → Prop
  | setCtrl (hi : (∃ d, i = .ctls d) ∨ ∃ d, i = .ctlc d) (c : Ctrl) : FlagEffect i s { s with ctrl := c }
  | filter (hi : ∃ d, i = .fstep d) (c : Byte) : FlagEffect i s (s.filter c).2
  | clearCancel (hi : i = .cack) : FlagEffect i s { s with cancelPend := false }

namespace FlagEffect

variable {i : Instr} {s t u : State}

/-- Each of the four commands is one such write and one answer. -/
theorem exec (hi : (∃ d, i = .ctls d) ∨ (∃ d, i = .ctlc d) ∨ (∃ d, i = .fstep d) ∨ i = .cack)
    (h : exec i s = .next t) : ∃ u w, FlagEffect i s u ∧ t = u.respond w := by
  rcases hi with ⟨d, rfl⟩ | ⟨d, rfl⟩ | ⟨d, rfl⟩ | rfl
  · exact ⟨_, _, .setCtrl (.inl ⟨d, rfl⟩) _, (single_next h).2⟩
  · exact ⟨_, _, .setCtrl (.inr ⟨d, rfl⟩) _, (single_next h).2⟩
  · exact ⟨_, _, .filter ⟨d, rfl⟩ d, (single_next h).2⟩
  · exact ⟨_, _, .clearCancel rfl, (single_next h).2⟩

theorem ring (h : FlagEffect i s u) (b : RingId) : u.ring b = s.ring b := by
  cases h with
  | filter =>
    cases b
    · exact s.filter_rx _
    · exact s.filter_tx _
  | setCtrl | clearCancel => cases b <;> rfl

theorem sm (h : FlagEffect i s u) : u.sm = s.sm := by
  cases h with
  | filter => exact s.filter_sm _
  | setCtrl | clearCancel => rfl

theorem cur (h : FlagEffect i s u) : u.cur = s.cur := by
  cases h with
  | filter => exact s.filter_cur _
  | setCtrl | clearCancel => exact State.cur_congr rfl rfl rfl

theorem escf (h : FlagEffect i s u) : u.escf = s.escf ∨ ∃ d, i = .fstep d := by
  cases h with
  | filter hi => exact .inr hi
  | setCtrl | clearCancel => exact .inl rfl

theorem cancelCount (h : FlagEffect i s u) : u.cancelCount = s.cancelCount ∨ ∃ d, i = .fstep d := by
  cases h with
  | filter hi => exact .inr hi
  | setCtrl | clearCancel => exact .inl rfl

theorem cancelPend (h : FlagEffect i s u) : u.cancelPend = s.cancelPend ∨ (∃ d, i = .fstep d) ∨ i = .cack := by
  cases h with
  | filter hi => exact .inr (.inl hi)
  | clearCancel hi => exact .inr (.inr hi)
  | setCtrl => exact .inl rfl

theorem ctrl (h : FlagEffect i s u) : u.ctrl = s.ctrl ∨ (∃ d, i = .ctls d) ∨ ∃ d, i = .ctlc d := by
  cases h with
  | setCtrl hi => exact .inr hi
  | filter => exact .inl (s.filter_ctrl _)
  | clearCancel => exact .inl rfl

end FlagEffect

end Sys2Proof.Machine
end

section
/-! PROOFS. The statements of 43_filter.md: CACK, FSTEP with the four cases of the filter, and the frame of the commands
that write a flag or a control bit. -/

namespace Sys2Proof.Machine

/-- Settles O31: the equation of CACK, with its answer written out. -/
theorem cackReadsAndClears : Obligations.CackReadsAndClears := by
  refine ⟨decode_ok_iff.mpr rfl, fun s hk => ?_⟩
  rw [exec_cack_zero hk, rspBool_eq]

/-- Settles O32: FSTEP answers by the result of the filter, in each of its four cases. -/
theorem fstepAppliesTheFilter : Obligations.FstepAppliesTheFilter :=
  ⟨fun _ => decode_of_fields (op := 0x7) rfl rfl rfl, fun _ _ hk =>
    ⟨fun he hc => exec_fstep_of_filter hk (State.filter_of_cancel he hc),
      fun he hc => exec_fstep_of_filter hk (State.filter_of_escaped he hc),
      fun he hc => exec_fstep_of_filter hk (State.filter_of_marker he hc),
      fun he hc => exec_fstep_of_filter hk (State.filter_of_plain he hc)⟩⟩

/-- Settles O47: read off what the command writes before it answers; what no micro-step writes is `MicroFrame`. -/
theorem flagCommandsFrame : Obligations.FlagCommandsFrame := by
  intro i s t hi h
  have hframe := MicroFrame.exec h
  obtain ⟨u, w, hu, rfl⟩ := FlagEffect.exec hi h
  have hans := SameButAnswer.respond u w
  have hslots (b : RingId) : ((u.respond w).ring b).storage = (s.ring b).storage :=
    congrArg Ring.storage ((hans.toSameShared.ring b).trans (hu.ring b))
  refine ⟨⟨w, ?_⟩, hframe.other, fun b => State.memRead_congr hframe.cfg (hslots b), hans.rx.trans (hu.ring .rx),
    hans.tx.trans (hu.ring .tx), hu.escf.imp_left hans.escf.trans, hu.cancelPend.imp_left hans.cancelPend.trans,
    hu.cancelCount.imp_left hans.cancelCount.trans, hu.ctrl.imp_left hans.ctrl.trans, hframe.insvc,
    hans.sm.trans hu.sm, hframe.cfg, hframe.script, hframe.txTrace, hframe.rxTrace⟩
  rw [State.respond_cur, hu.cur]

end Sys2Proof.Machine
end

section
/-! SUPPORT. The byte of four bits that `CTRL` and `STATUS` are, bit by bit and under a mask (10_state.md R34, R40), and
NOP, CTLR, CTLS, CTLC and STAT as equations (44_control.md R209 to R212, R214). -/

namespace Sys2Proof.Machine

/-! ### The byte of four bits (10_state.md R34, R40) -/

/-- The byte `{0000, b3, b2, b1, b0}`: `CTRL` by `Ctrl.toByte_eq_nibble` and `STATUS` by `State.status_eq_nibble`. -/
def nibble (b3 b2 b1 b0 : Bool) : Byte :=
  (0 : BitVec 4) ++ BitVec.ofBool b3 ++ BitVec.ofBool b2 ++ BitVec.ofBool b1 ++ BitVec.ofBool b0

theorem Ctrl.toByte_eq_nibble (c : Ctrl) : c.toByte = nibble c.imask c.crlf c.txie c.rxie := rfl

theorem State.status_eq_nibble (s : State) :
    s.status = nibble s.cancelPend s.escf (!s.fullP .tx) (!s.emptyC .rx) := rfl

section
variable (a3 a2 a1 a0 b3 b2 b1 b0 : Bool)

theorem getLsbD_nibble (i : Nat) : (nibble b3 b2 b1 b0).getLsbD i = [b0, b1, b2, b3].getD i false := by
  rw [nibble, BitVec.getLsbD_append, BitVec.getLsbD_append, BitVec.getLsbD_append, BitVec.getLsbD_append]
  match i with
  | 0 | 1 | 2 | 3 | _ + 4 => simp

theorem nibble_or : nibble a3 a2 a1 a0 ||| nibble b3 b2 b1 b0 = nibble (a3 || b3) (a2 || b2) (a1 || b1) (a0 || b0) := by
  refine BitVec.eq_of_getLsbD_eq fun i _ => ?_
  rw [BitVec.getLsbD_or, getLsbD_nibble, getLsbD_nibble, getLsbD_nibble]
  match i with
  | 0 | 1 | 2 | 3 | _ + 4 => rfl

theorem nibble_and_not :
    nibble a3 a2 a1 a0 &&& ~~~nibble b3 b2 b1 b0 = nibble (a3 && !b3) (a2 && !b2) (a1 && !b1) (a0 && !b0) := by
  refine BitVec.eq_of_getLsbD_eq fun i hi => ?_
  rw [BitVec.getLsbD_and, BitVec.getLsbD_not, decide_eq_true hi, Bool.true_and, getLsbD_nibble, getLsbD_nibble,
    getLsbD_nibble]
  match i with
  | 0 | 1 | 2 | 3 | _ + 4 => rfl

/-- The high four bits are 0. -/
theorem nibble_and_high : nibble b3 b2 b1 b0 &&& 0xF0 = 0 := by
  rw [show (0xF0 : Byte) = ~~~nibble true true true true from rfl, nibble_and_not]
  simp only [Bool.not_true, Bool.and_false]
  rfl

end

/-- The mask of CTLS and CTLC keeps the low four bits of the operand (44_control.md R211, R212). -/
theorem and_low_eq_nibble (d : Byte) :
    d &&& 0x0F = nibble (d.getLsbD 3) (d.getLsbD 2) (d.getLsbD 1) (d.getLsbD 0) := by
  rw [show (0x0F : Byte) = nibble true true true true from rfl]
  refine BitVec.eq_of_getLsbD_eq fun i _ => ?_
  rw [BitVec.getLsbD_and, getLsbD_nibble, getLsbD_nibble]
  match i with
  | 0 | 1 | 2 | 3 => exact Bool.and_true _
  | _ + 4 => exact Bool.and_false _

theorem Ctrl.setBits_toByte (c : Ctrl) (d : Byte) : (c.setBits d).toByte = c.toByte ||| (d &&& 0x0F) := by
  rw [and_low_eq_nibble, c.toByte_eq_nibble, nibble_or]
  rfl

theorem Ctrl.clearBits_toByte (c : Ctrl) (d : Byte) : (c.clearBits d).toByte = c.toByte &&& ~~~(d &&& 0x0F) := by
  rw [and_low_eq_nibble, c.toByte_eq_nibble, nibble_and_not]
  rfl

theorem State.status_rxne (s : State) : s.status.getLsbD 0 = true ↔ s.headView .rx ≠ s.rx.tail := by
  rw [s.status_eq_nibble, getLsbD_nibble]
  exact (Bool.not_eq_true' _).to_iff.trans State.emptyC_eq_false

theorem State.status_txnf (s : State) : s.status.getLsbD 1 = true ↔ incN s.cfg.nTx s.tx.head ≠ s.tailView .tx := by
  rw [s.status_eq_nibble, getLsbD_nibble]
  exact (Bool.not_eq_true' _).to_iff.trans State.fullP_eq_false

/-! ### NOP, CTLR, CTLS, CTLC and STAT (44_control.md R209 to R212, R214) -/

section
variable {s : State}

theorem exec_nop_zero (h : s.cur.upc = 0) : exec .nop s = .next (s.respond rspNone) :=
  single_zero _ h

theorem exec_ctlr_zero (h : s.cur.upc = 0) : exec .ctlr s = .next (s.respond (rspData s.ctrl.toByte)) :=
  single_zero _ h

theorem exec_ctls_zero (d : Byte) (h : s.cur.upc = 0) :
    exec (.ctls d) s = .next ({ s with ctrl := s.ctrl.setBits d }.respond (rspData s.ctrl.toByte)) :=
  single_zero _ h

theorem exec_ctlc_zero (d : Byte) (h : s.cur.upc = 0) :
    exec (.ctlc d) s = .next ({ s with ctrl := s.ctrl.clearBits d }.respond (rspData s.ctrl.toByte)) :=
  single_zero _ h

theorem exec_stat_zero (h : s.cur.upc = 0) : exec .stat s = .next (s.respond (rspData s.status)) :=
  single_zero _ h

end

end Sys2Proof.Machine
end

section
/-! PROOFS. The statements of 44_control.md: NOP, CTLR and STAT with the bits they answer, CTLS and CTLC with the value
they give `CTRL`. -/

namespace Sys2Proof.Machine

/-- Settles O29: each command is one `respond`; the bits of `CTRL` and `STATUS` are read off the byte of four bits. -/
theorem nopCtlrAndStatAnswer : Obligations.NopCtlrAndStatAnswer := by
  refine ⟨decode_ok_iff.mpr rfl, decode_ok_iff.mpr rfl, decode_ok_iff.mpr rfl, fun s hk =>
    ⟨exec_nop_zero hk, exec_ctlr_zero hk, ?_, ?_, ?_, ?_, nibble_and_high .., exec_stat_zero hk, s.status_rxne,
      s.status_txnf, ?_, ?_, nibble_and_high ..⟩⟩
  all_goals exact getLsbD_nibble ..

/-- Settles O30: each command writes `CTRL` and answers; the new `CTRL` is the mask on the byte of four bits. -/
theorem ctlsAndCtlcWriteCtrl : Obligations.CtlsAndCtlcWriteCtrl :=
  ⟨fun _ => ⟨decode_of_fields (op := 0x9) rfl rfl rfl, decode_of_fields (op := 0xA) rfl rfl rfl⟩, fun d s hk =>
    ⟨exec_ctls_zero d hk, s.ctrl.setBits_toByte d, exec_ctlc_zero d hk, s.ctrl.clearBits_toByte d⟩⟩

end Sys2Proof.Machine
end

section
/-! SUPPORT. When an agent may step and what its step answers, as equations; where `SpscViolation` is recorded, as an
equivalence (60_exceptions.md R230, R235 to R241, R247 to R250). -/

namespace Sys2Proof.Machine

/-! ### The chosen step (60_exceptions.md R247) -/

section
variable {s t : State} {e : Event} {rest : List Event} (hwf : s.cfg.wf = true) (hs : s.script = e :: rest)
include hwf hs

theorem step_of_enabled (he : s.enabled e = true) : step s = ({ s with script := rest }).perform e := by
  rw [step_of_script hwf hs, State.take, s.setScript_enabled, if_pos he]

theorem step_of_not_enabled (he : ¬s.enabled e = true) : step s = .next { s with script := rest } := by
  rw [step_of_script hwf hs, State.take, s.setScript_enabled, if_neg he]

/-- A chosen step whose effect is total, by its enabling condition `p`. -/
theorem step_of_enabled_iff {p : Prop} [Decidable p] (he : s.enabled e = true ↔ p)
    (hp : ({ s with script := rest }).perform e = .next t) :
    step s = .next (if p then t else { s with script := rest }) := by
  split
  · rw [step_of_enabled hwf hs (he.mpr ‹p›), hp]
  · rw [step_of_not_enabled hwf hs (mt he.mp ‹¬p›)]

end

/-! ### The enabling conditions of the agents (60_exceptions.md R235, R237, R241, R247, R250) -/

theorem State.interruptible_iff {s : State} : s.interruptible = true ↔ s.insvc = .none ∧ s.ctrl.imask = false := by
  simp [State.interruptible]

theorem State.interruptible_of_session {s : State} (h : s.insvc = .a) : s.interruptible = false := by
  simp [State.interruptible, h]

theorem State.enabled_aLeave_iff {s : State} : s.enabled .aLeave = true ↔ s.insvc = .a ∧ s.a.busy = false := by
  simp [State.enabled]

theorem State.enabled_rxp_iff {s : State} {v : Byte} :
    s.enabled (.rxp v) = true ↔ s.insvc = .none ∧ s.ctrl.imask = false ∧ s.ctrl.rxie = true := by
  simp [State.enabled, State.interruptible_iff, and_assoc]

theorem State.enabled_txc_iff {s : State} :
    s.enabled .txc = true ↔ s.insvc = .none ∧ s.ctrl.imask = false ∧ s.ctrl.txie = true ∧
      (s.headView .tx ≠ s.tx.tail ∨ s.cfg.txAutostop = true) := by
  simp [State.enabled, State.interruptible_iff, State.emptyC_eq_false, State.ring, and_assoc]

theorem State.enabled_quirk_iff {s : State} {e : Enable} :
    s.enabled (.quirk e) = true ↔ s.cfg.quirkClears = true ∧ s.ctrl.enableBit e = true := by
  simp [State.enabled]

/-! ### The atomic push and pop as equations (40_ring.md R134) -/

section
variable {s : State} {b : RingId} {v : Byte}

theorem State.pushAtomic_of_full (h : s.fullP b = true) : s.pushAtomic b v = .ok (false, s) :=
  if_pos h

theorem State.pushAtomic_of_room (h : s.fullP b = false) (hlt : (s.ring b).head < s.cap b) :
    s.pushAtomic b v = .ok (true, (s.stored b v).ppub b) := by
  rw [State.pushAtomic, if_neg (by simp [h]), State.psto, State.memWrite_ok.mpr ⟨hlt, rfl⟩, State.stored]

theorem State.popAtomic_of_empty (h : s.emptyC b = true) : s.popAtomic b = .ok (none, s) :=
  if_pos h

theorem State.popAtomic_of_read (h : s.emptyC b = false) (hread : s.memRead b (s.ring b).tail = .ok v) :
    s.popAtomic b = .ok (some v, s.crel b) := by
  rw [State.popAtomic, if_neg (by simp [h]), State.clod, hread]

end

/-! ### `RXP` and `TXC` with their enable set (60_exceptions.md R236, R238, R240) -/

/-- The byte `v` has come in on the receive wire. -/
def State.received (s : State) (v : Byte) : State :=
  { s with rxTrace := s.rxTrace ++ [v] }

section
variable {s : State} {v : Byte}

theorem State.rxpStep_eq (hie : s.ctrl.rxie = true) :
    s.rxpStep v = onOk ((s.received v).pushAtomic .rx v) fun r => .next r.2 := by
  have hctrl : { s.ctrl with rxie := true } = s.ctrl := by rw [← hie]
  rw [State.rxpStep, hctrl, State.received]

theorem State.rxpStep_of_full (hie : s.ctrl.rxie = true) (h : s.fullP .rx = true) :
    s.rxpStep v = .next (s.received v) := by
  have hfull : (s.received v).fullP .rx = true := h
  rw [State.rxpStep_eq hie, State.pushAtomic_of_full hfull, onOk_ok]

theorem State.rxpStep_of_room (hie : s.ctrl.rxie = true) (h : s.fullP .rx = false) (hlt : s.rx.head < s.cfg.nRx) :
    s.rxpStep v = .next (((s.received v).stored .rx v).ppub .rx) := by
  have hroom : (s.received v).fullP .rx = false := h
  rw [State.rxpStep_eq hie, State.pushAtomic_of_room hroom hlt, onOk_ok]

theorem State.txcStep_of_empty (hie : s.ctrl.txie = true) (h : s.emptyC .tx = true) :
    s.txcStep = .next { s with ctrl := { s.ctrl with txie := false } } := by
  simp only [State.txcStep, State.setTxie_of_set hie, State.popAtomic_of_empty h, onOk_ok]

theorem State.txcStep_of_read (hie : s.ctrl.txie = true) (h : s.emptyC .tx = false)
    (hread : s.memRead .tx s.tx.tail = .ok v) :
    s.txcStep = .next { s.crel .tx with txTrace := s.txTrace ++ [v] } := by
  simp only [State.txcStep, State.setTxie_of_set hie, State.popAtomic_of_read h hread, onOk_ok, State.crel_txTrace]

end

/-! ### What port A leaves of port F's saved mask (42_channel.md R172) -/

/-- A micro-step of port A does not write `F.sm`: of the commands only RD and WR could, and their bracket is empty
there. -/
theorem exec_sm_of_session {i : Instr} {s t : State} (ha : s.stepping = .a) (h : exec i s = .next t) : t.sm = s.sm := by
  have hnot : ¬s.stepping = .f := by simp [ha]
  cases i with
  | nop | ctlr | stat | rxempty | txfull | ptrr =>
    obtain ⟨w, rfl⟩ := exec_reading (by simp) h
    exact s.respond_sm w
  | ctls | ctlc | fstep | cack =>
    obtain ⟨u, w, hu, rfl⟩ := FlagEffect.exec (by simp) h
    exact (u.respond_sm w).trans hu.sm
  | rd | rxpop =>
    obtain ⟨u, hu, hut⟩ := PopEffect.exec (by simp) h
    obtain ⟨hsm, -⟩ := hu.mask.resolve_right fun ⟨_, hf⟩ => hnot hf
    exact hut.sm.trans hsm
  | txpush | wr =>
    obtain ⟨u, hu, hut⟩ := PushEffect.exec (by simp) h
    obtain ⟨hsm, -⟩ := hu.mask.resolve_left fun ⟨_, hf⟩ => hnot hf
    exact hut.sm.trans hsm

theorem State.runMicro_sm_of_session {s t : State} (ha : s.stepping = .a) (h : s.runMicro = .next t) : t.sm = s.sm := by
  unfold State.runMicro at h
  split at h
  · exact exec_sm_of_session ha h
  · obtain ⟨-, rfl⟩ := single_next h
    exact s.respond_sm _

/-! ### The fault rule as an equivalence (60_exceptions.md R230) -/

/-- The check micro-steps of the ring commands: PCHK of TXPUSH and WR, CCHK of RXPOP and RD (40_ring.md R128, R131). -/
def checking : Instr → Nat → Bool
  | .txpush _, k => k == 0
  | .wr _, k => k == 3
  | .rxpop, k => k == 0
  | .rd, k => k == 1
  | _, _ => false

theorem checking_iff {i : Instr} {k : BitVec 4} :
    checking i k.toNat = true ↔
      ((∃ d, i = .txpush d) ∧ k = 0) ∨ ((∃ d, i = .wr d) ∧ k = 3) ∨ (i = .rxpop ∧ k = 0) ∨ (i = .rd ∧ k = 1) := by
  cases i <;> simp [checking, ← BitVec.toNat_inj]

/-- A check of port A on an end that port F has open is the fault. -/
theorem exec_of_meetsOpenEnd {i : Instr} {s : State} (hcheck : checking i s.cur.upc.toNat = true)
    (hm : s.meetsOpenEnd i) : exec i s = .fault .spscViolation := by
  rcases checking_iff.mp hcheck with ⟨⟨d, rfl⟩, hk⟩ | ⟨⟨d, rfl⟩, hk⟩ | ⟨rfl, hk⟩ | ⟨rfl, hk⟩ <;>
    obtain ⟨ha, hopen⟩ := hm
  · rw [exec_txpush_zero d hk, State.pchk_of_open _ _ ha hopen]
  · rw [exec_wr_three d hk, State.pchk_of_open _ _ ha hopen]
  · rw [exec_rxpop_zero hk, State.cchk_of_open _ _ ha hopen]
  · rw [exec_rd_one hk, State.cchk_of_open _ _ ha hopen]

/-- No other micro-step than a check records the fault. -/
theorem checking_of_exec {i : Instr} {s : State} (h : exec i s = .fault .spscViolation) :
    checking i s.cur.upc.toNat = true := by
  cases i with
  | rd =>
    simp only [exec, execRd] at h
    split at h
    case h_2 hk => rw [hk]; rfl
    case h_3 => exact absurd h State.loadT_ne_spsc
    all_goals cases h
  | rxpop =>
    simp only [exec, execRxpop] at h
    split at h
    case h_1 hk => rw [hk]; rfl
    case h_2 => exact absurd h State.loadT_ne_spsc
    all_goals cases h
  | txpush d =>
    simp only [exec, execTxpush] at h
    split at h
    case h_1 hk => rw [hk]; rfl
    case h_2 => exact absurd h State.storeThen_ne_spsc
    all_goals cases h
  | wr d =>
    simp only [exec, execWr] at h
    split at h
    case h_4 hk => rw [hk]; rfl
    case h_5 => exact absurd h State.storeThen_ne_spsc
    all_goals cases h
  | nop | rxempty | txfull | fstep | ctlr | ctls | ctlc | stat | cack | ptrr => exact absurd h single_ne_spsc

theorem exec_spsc_iff {i : Instr} {s : State} :
    exec i s = .fault .spscViolation ↔ checking i s.cur.upc.toNat = true ∧ s.meetsOpenEnd i :=
  ⟨fun h => ⟨checking_of_exec h, meetsOpenEnd_of_exec h⟩, fun ⟨hcheck, hm⟩ => exec_of_meetsOpenEnd hcheck hm⟩

theorem onOk_fault {α : Type} {r : Except Fault α} {k : α → Result} {e : Fault} (h : onOk r k = .fault e) :
    r = .error e ∨ ∃ x, k x = .fault e := by
  cases r with
  | ok x => exact .inr ⟨x, h⟩
  | error e' => cases h; exact .inl rfl

theorem State.pushAtomic_error {s : State} {b : RingId} {v : Byte} {e : Fault} (h : s.pushAtomic b v = .error e) :
    e = .noSuchSlot b := by
  unfold State.pushAtomic State.psto State.memWrite at h
  split_ifs at h
  cases h
  rfl

theorem State.popAtomic_error {s : State} {b : RingId} {e : Fault} (h : s.popAtomic b = .error e) :
    s.memRead b (s.ring b).tail = .error e := by
  unfold State.popAtomic at h
  split at h
  · cases h
  · split at h
    · cases h
    · cases h; assumption

theorem State.rxpStep_ne_spsc {s : State} {v : Byte} : s.rxpStep v ≠ .fault .spscViolation := fun h => by
  rcases onOk_fault h with hpush | ⟨_, hnext⟩
  · cases State.pushAtomic_error hpush
  · cases hnext

theorem State.txcStep_ne_spsc {s : State} : s.txcStep ≠ .fault .spscViolation := fun h => by
  rcases onOk_fault h with hpop | ⟨⟨_ | _, _⟩, hnext⟩
  · rcases State.memRead_error (State.popAtomic_error hpop) with ⟨he, -⟩ | ⟨he, -⟩ <;> cases he
  · cases hnext
  · cases hnext

/-- Only a micro-step of a legal command records the fault. -/
theorem State.perform_spsc_iff {s : State} {e : Event} (he : s.enabled e = true) :
    s.perform e = .fault .spscViolation ↔
      e = .micro s.stepping ∧ ∃ i, s.running s.stepping = some i ∧ exec i s = .fault .spscViolation := by
  cases e with
  | micro x =>
    obtain ⟨rfl, hb⟩ := State.of_enabled_micro he
    have hrunning {i : Instr} : s.running s.stepping = some i ↔ decode s.cur.cmd = .ok i :=
      ⟨fun h => (State.running_busy h).2, State.running_of_decode hb⟩
    simp only [State.perform, State.runMicro, hrunning, true_and]
    cases decode s.cur.cmd with
    | ok i => simp
    | error => simp [execIllegal, single_ne_spsc]
  | rxp v => simp [State.perform, State.rxpStep_ne_spsc]
  | txc => simp [State.perform, State.txcStep_ne_spsc]
  | accept | aEnter | aLeave | syn | quirk => simp [State.perform]

/-! ### Which end port F has open (10_state.md R48) -/

theorem State.openP_iff {s : State} :
    s.openP = true ↔ (∃ d, s.running .f = some (.txpush d)) ∧ (s.f.upc = 1 ∨ s.f.upc = 2) := by
  constructor
  · intro h
    simp only [State.openP, Bool.and_eq_true, Bool.or_eq_true, beq_iff_eq] at h
    obtain ⟨⟨hbusy, hcmd⟩, hk⟩ := h
    split at hcmd
    · exact ⟨⟨_, State.running_of_decode hbusy ‹_›⟩, hk⟩
    · cases hcmd
  · rintro ⟨⟨d, hrun⟩, hk⟩
    obtain ⟨hbusy, hdec⟩ : s.f.busy = true ∧ decode s.f.cmd = .ok (.txpush d) := State.running_busy hrun
    simpa [State.openP, hbusy, hdec] using hk

theorem State.openC_iff {s : State} :
    s.openC = true ↔ s.running .f = some .rxpop ∧ (s.f.upc = 1 ∨ s.f.upc = 2) := by
  constructor
  · intro h
    simp only [State.openC, Bool.and_eq_true, Bool.or_eq_true, beq_iff_eq] at h
    obtain ⟨⟨hbusy, hcmd⟩, hk⟩ := h
    split at hcmd
    · exact ⟨State.running_of_decode hbusy ‹_›, hk⟩
    · cases hcmd
  · rintro ⟨hrun, hk⟩
    obtain ⟨hbusy, hdec⟩ : s.f.busy = true ∧ decode s.f.cmd = .ok .rxpop := State.running_busy hrun
    simpa [State.openC, hbusy, hdec] using hk

/-! ### The step that records the fault -/

theorem State.stepping_of_meetsOpenEnd {s : State} {i : Instr} (h : s.meetsOpenEnd i) : s.stepping = .a := by
  cases i with
  | txpush | wr | rxpop | rd => obtain ⟨ha, -⟩ := h; exact ha
  | _ => exact h.elim

/-- The step is the fault exactly at a chosen check of a command that meets an open end. -/
theorem step_spsc_iff {s : State} (hwf : s.cfg.wf = true) :
    step s = .fault .spscViolation ↔ s.nextEvent = some (.micro s.stepping) ∧
      ∃ i, s.running s.stepping = some i ∧ checking i s.cur.upc.toNat = true ∧ s.meetsOpenEnd i := by
  rw [step, if_pos hwf]
  rcases s.advance_cases with ⟨hev, hs⟩ | ⟨e, hev, he, hs⟩ | ⟨e, hev, he, hs⟩ <;> rw [hs, hev]
  · simp
  · refine ⟨nofun, ?_⟩
    rintro ⟨hmicro, i, hrun, -⟩
    cases hmicro
    obtain ⟨hbusy, -⟩ := State.running_busy hrun
    have hen : s.enabled (.micro s.stepping) = true := by simp [State.enabled, hbusy]
    exact Bool.noConfusion (he.symm.trans ((s.setScript_enabled _ _).trans hen))
  · simp only [State.perform_spsc_iff he, exec_spsc_iff, Option.some.injEq]
    exact Iff.rfl

end Sys2Proof.Machine
end

section
/-! PROOFS. The statements of 60_exceptions.md: the fault rule, the agents and the sessions of port A. -/

namespace Sys2Proof.Machine

/-- Settles O15: only a check of port A that meets an open end is the fault; the checks are the four micro-steps named,
and the open ends are those of R48. -/
theorem spscFaultExactly : Obligations.SpscFaultExactly := by
  intro s hwf
  rw [step_spsc_iff hwf]
  constructor
  · rintro ⟨hev, i, hrun, hcheck, hm⟩
    have ha := State.stepping_of_meetsOpenEnd hm
    rw [State.cur, ha] at hcheck
    rw [ha] at hev hrun
    refine ⟨hev, State.stepping_eq_a.mp ha, ?_⟩
    rcases checking_iff.mp hcheck with ⟨⟨d, rfl⟩, hk⟩ | ⟨⟨d, rfl⟩, hk⟩ | ⟨rfl, hk⟩ | ⟨rfl, hk⟩ <;>
      obtain ⟨-, hopen⟩ := hm
    · obtain ⟨hrunF, hkF⟩ := State.openP_iff.mp hopen
      exact .inl ⟨hrunF, hkF, .inl ⟨⟨d, hrun⟩, hk⟩⟩
    · obtain ⟨hrunF, hkF⟩ := State.openP_iff.mp hopen
      exact .inl ⟨hrunF, hkF, .inr ⟨⟨d, hrun⟩, hk⟩⟩
    · obtain ⟨hrunF, hkF⟩ := State.openC_iff.mp hopen
      exact .inr ⟨hrunF, hkF, .inl ⟨hrun, hk⟩⟩
    · obtain ⟨hrunF, hkF⟩ := State.openC_iff.mp hopen
      exact .inr ⟨hrunF, hkF, .inr ⟨hrun, hk⟩⟩
  · rintro ⟨hev, hins, hends⟩
    have ha := State.stepping_eq_a.mpr hins
    rw [State.cur, ha]
    refine ⟨hev, ?_⟩
    rcases hends with ⟨hrunF, hkF, ⟨⟨d, hrun⟩, hk⟩ | ⟨⟨d, hrun⟩, hk⟩⟩ | ⟨hrunF, hkF, ⟨hrun, hk⟩ | ⟨hrun, hk⟩⟩
    · exact ⟨_, hrun, checking_iff.mpr (.inl ⟨⟨d, rfl⟩, hk⟩), ha, State.openP_iff.mpr ⟨hrunF, hkF⟩⟩
    · exact ⟨_, hrun, checking_iff.mpr (.inr (.inl ⟨⟨d, rfl⟩, hk⟩)), ha, State.openP_iff.mpr ⟨hrunF, hkF⟩⟩
    · exact ⟨_, hrun, checking_iff.mpr (.inr (.inr (.inl ⟨rfl, hk⟩))), ha, State.openC_iff.mpr ⟨hrunF, hkF⟩⟩
    · exact ⟨_, hrun, checking_iff.mpr (.inr (.inr (.inr ⟨rfl, hk⟩))), ha, State.openC_iff.mpr ⟨hrunF, hkF⟩⟩

/-- Settles O53: in a session port F is the port that may not step, the steps that would receive or send are not
enabled, and of the enabled ones `A_LEAVE` alone writes `insvc`. -/
theorem aSessionHoldsTheOthers : Obligations.ASessionHoldsTheOthers := by
  intro s t hopen h
  have hstep : s.stepping = .a := State.stepping_eq_a.mpr hopen
  have hf : t.f = s.f := by
    obtain ⟨-, hport⟩ := step_keepsIdlePort h
    rw [hstep] at hport
    exact hport
  have hint : s.popScript.interruptible = false := State.interruptible_of_session hopen
  rcases step_cases h with ⟨-, rfl⟩ | ⟨e, hev, rfl | ⟨he, hp⟩⟩
  · exact ⟨rfl, rfl, rfl, rfl, rfl, rfl, .inl hopen⟩
  · exact ⟨rfl, rfl, rfl, rfl, rfl, rfl, .inl hopen⟩
  cases e with
  | micro x =>
    have hframe := MicroFrame.runMicro hp
    have hsm : t.sm = s.popScript.sm := State.runMicro_sm_of_session hstep hp
    exact ⟨hf, hsm, hframe.rxTrace, hframe.txTrace, hframe.rxHead, hframe.txTail, .inl (hframe.insvc.trans hopen)⟩
  | aEnter | rxp | txc => simp [State.enabled, hint] at he
  | aLeave =>
    cases hp
    obtain ⟨-, hidle⟩ := State.enabled_aLeave_iff.mp he
    exact ⟨rfl, rfl, rfl, rfl, rfl, rfl, .inr ⟨hev, hidle⟩⟩
  | accept x w => cases hp; exact ⟨hf, by simp, by simp, by simp, by simp, by simp, .inl (by simpa using hopen)⟩
  | quirk x => cases hp; exact ⟨hf, by simp, by simp, by simp, by simp, by simp, .inl (by simpa using hopen)⟩
  | syn b p k =>
    cases hp
    obtain ⟨-, htail, -⟩ := s.popScript.synStep_pointers b p k .tx
    obtain ⟨hhead, -⟩ := s.popScript.synStep_pointers b p k .rx
    exact ⟨hf, by simp, by simp, by simp, hhead, htail, .inl (by simpa using hopen)⟩

/-- Settles O7: the four ways `step` goes without an enabled choice of the script. -/
theorem stepWithoutAnEnabledChoice : Obligations.StepWithoutAnEnabledChoice := by
  refine ⟨fun s e rest hwf hs he => ?_, fun s hwf hs hidle => ?_, fun s i hwf hs hbusy hdec => ?_, fun s hwf => ?_⟩
  · have hen : s.enabled e = false := (s.setScript_enabled rest e).symm.trans he
    exact step_of_not_enabled hwf hs (by simp [hen])
  · have hnone : s.nextEvent = none := by simp [State.nextEvent, hs, hidle]
    simp [step, hwf, State.advance, hnone]
  · have hev : s.nextEvent = some (.micro s.stepping) := by simp [State.nextEvent, hs, hbusy]
    have hpop : s.popScript = s := by rw [State.popScript, hs, List.tail_nil, ← hs]
    have hen : s.enabled (.micro s.stepping) = true := by
      have hb : (s.port s.stepping).busy = true := hbusy
      simp [State.enabled, hb]
    simp [step, hwf, State.advance, hev, hpop, State.take, hen, State.perform, State.runMicro, hdec]
  · simp [step, hwf]

/-- Settles O50: an enabled `RXP` is `push_atomic` with its result ignored. -/
theorem rxpTakesOneByte : Obligations.RxpTakesOneByte := by
  intro s v rest hwf hs hlt
  refine ⟨fun ⟨hidle, hmask, hie⟩ => ?_, fun hnot => step_of_not_enabled hwf hs (mt State.enabled_rxp_iff.mp hnot)⟩
  rw [step_of_enabled hwf hs (State.enabled_rxp_iff.mpr ⟨hidle, hmask, hie⟩)]
  split
  · exact State.rxpStep_of_full (s := { s with script := rest }) hie (State.fullP_iff.mpr ‹_›)
  · exact State.rxpStep_of_room (s := { s with script := rest }) hie (State.fullP_eq_false.mpr ‹_›) hlt

/-- Settles O51: an enabled `TXC` is `pop_atomic` with its byte sent, or with `TXIE` cleared where there was none. -/
theorem txcSendsOneByte : Obligations.TxcSendsOneByte := by
  intro s rest hwf hs
  refine ⟨fun v hidle hmask hie hdata hread => ?_, fun hidle hmask hie hempty hauto => ?_, fun hnone => ?_⟩
  · rw [step_of_enabled hwf hs (State.enabled_txc_iff.mpr ⟨hidle, hmask, hie, .inl hdata⟩)]
    exact State.txcStep_of_read (s := { s with script := rest }) hie (State.emptyC_eq_false.mpr hdata) hread
  · rw [step_of_enabled hwf hs (State.enabled_txc_iff.mpr ⟨hidle, hmask, hie, .inr hauto⟩)]
    exact State.txcStep_of_empty (s := { s with script := rest }) hie (State.emptyC_iff.mpr hempty)
  · refine step_of_not_enabled hwf hs fun hen => ?_
    obtain ⟨hidle, hmask, hie, hwork⟩ := State.enabled_txc_iff.mp hen
    rcases hnone with ha | hset | hclear | ⟨hempty, hauto⟩
    · simp [ha] at hidle
    · simp [hset] at hmask
    · simp [hclear] at hie
    · simp [hempty, hauto] at hwork

/-- Settles O52: both steps write `insvc` alone, each under its enabling condition. -/
theorem sessionOpensAndCloses : Obligations.SessionOpensAndCloses :=
  fun _ _ hwf => ⟨fun hs => step_of_enabled_iff hwf hs State.interruptible_iff rfl,
    fun hs => step_of_enabled_iff hwf hs State.enabled_aLeave_iff rfl⟩

/-- Settles O55: for either enable, the quirk step clears it under its enabling condition. -/
theorem quirkClearsOneEnable : Obligations.QuirkClearsOneEnable :=
  fun _ _ hwf => ⟨fun hs => step_of_enabled_iff hwf hs State.enabled_quirk_iff rfl,
    fun hs => step_of_enabled_iff hwf hs State.enabled_quirk_iff rfl⟩

end Sys2Proof.Machine
end

section
/-! SUPPORT. The state after reset (70_reset_and_hazards.md R266): its rings, views, checks and ports, for every block. Then
when a port accepts a word (60_exceptions.md R247), and what quiescence says of each part of the state (R288). -/

namespace Sys2Proof.Machine

/-! ### The state after reset (70_reset_and_hazards.md R266) -/

/-- An index at 0 is no distance from itself, in a ring of any size. -/
theorem distN_zero_zero (n : Nat) : distN n 0 0 = 0 := by
  rw [distN, Nat.zero_add, Nat.sub_zero, Nat.mod_self]

section
variable (c : Config)

theorem State.resetWith_ring (b : RingId) : (State.resetWith c).ring b = Ring.reset := by
  cases b <;> rfl

theorem State.resetWith_port (x : Port) : (State.resetWith c).port x = PortState.reset := by
  cases x <;> rfl

theorem State.resetWith_headView (b : RingId) : (State.resetWith c).headView b = 0 := by
  rw [State.headView, State.resetWith_ring]
  exact ite_self 0

theorem State.resetWith_tailView (b : RingId) : (State.resetWith c).tailView b = 0 := by
  rw [State.tailView, State.resetWith_ring]
  exact ite_self 0

theorem State.resetWith_occ (b : RingId) : (State.resetWith c).occ b = 0 := by
  rw [State.occ, State.resetWith_ring]
  exact distN_zero_zero _

theorem State.resetWith_contents (b : RingId) : (State.resetWith c).contents b = [] := by
  have hslots : (State.resetWith c).occ b = 0 := State.resetWith_occ c b
  rw [State.occ] at hslots
  rw [State.contents, Ring.contents, hslots]
  rfl

theorem State.resetWith_emptyC (b : RingId) : (State.resetWith c).emptyC b = true := by
  rw [State.emptyC_iff, State.resetWith_headView, State.resetWith_ring]
  rfl

/-- A ring of two slots or more has room for its first byte. -/
theorem State.resetWith_fullP {c : Config} (h : c.wf = true) (b : RingId) : (State.resetWith c).fullP b = false := by
  rw [State.fullP_eq_false, State.resetWith_tailView, State.resetWith_ring]
  exact incN_ne_self (Config.two_le_cap h b)

theorem State.resetWith_ctrl_toByte : (State.resetWith c).ctrl.toByte = 0x04 := by
  rw [Ctrl.toByte_eq_nibble]
  show nibble false true false false = 0x04
  decide

/-- `RXNE` is 0 and `TXNF` is 1 (10_state.md R40). -/
theorem State.resetWith_status {c : Config} (h : c.wf = true) : (State.resetWith c).status = 0x02 := by
  rw [State.status_eq_nibble, State.resetWith_fullP h, State.resetWith_emptyC]
  show nibble false false true false = 0x02
  decide

/-- No pointer has moved past its view. -/
theorem State.resetWith_viewReg (b : RingId) (p : PtrSel) :
    ((State.resetWith c).ring b).viewReg p = ((State.resetWith c).ring b).pointer p := by
  rw [State.resetWith_ring]
  cases p <;> rfl

end

/-! ### Acceptance and quiescence -/

theorem State.enabled_accept_iff {s : State} {x : Port} {w : Word} :
    s.enabled (.accept x w) = true ↔ s.stepping = x ∧ (s.port x).busy = false := by
  simp [State.enabled, State.cmdReady]

theorem State.quiescent_iff {s : State} :
    s.quiescent = true ↔ s.f.busy = false ∧ s.a.busy = false ∧ s.insvc = .none ∧ s.script.any Event.isInput = false ∧
      s.caughtUp .rx = true ∧ s.caughtUp .tx = true ∧ s.enabled .txc = false := by
  simp [State.quiescent, and_assoc]

end Sys2Proof.Machine
end

section
/-! PROOFS. The statements of 70_reset_and_hazards.md on reset and on quiescent states. -/

namespace Sys2Proof.Machine

/-- Settles O10: the rings and the ports are those of reset, and `STATUS` shows an empty `RX` and room in `TX`. -/
theorem resetValues : Obligations.ResetValues := by
  intro c
  refine ⟨fun b => ?_, rfl, rfl, State.resetWith_ctrl_toByte c, rfl, State.resetWith_port c, rfl, State.resetWith_status,
    rfl, rfl, rfl, rfl, rfl⟩
  refine ⟨?_, ?_, ?_, ?_, State.resetWith_contents c b, State.resetWith_occ c b⟩ <;> rw [State.resetWith_ring] <;> rfl

/-- Settles O11: port F may step and is idle and the mask is 0, which leaves those two steps; no session is open, both
interrupt enables are 0 and every view is at its pointer, which rules out the others. -/
theorem resetEnablesAcceptanceAndSession : Obligations.ResetEnablesAcceptanceAndSession := by
  intro c e
  have hidle (x : Port) : ((State.resetWith c).port x).busy = false := by
    rw [State.resetWith_port]
    rfl
  cases e with
  | accept x w =>
    have hready : (State.resetWith c).enabled (.accept x w) = true ↔ Port.f = x :=
      State.enabled_accept_iff.trans (and_iff_left (hidle x))
    simp [hready, eq_comm]
  | aEnter => exact iff_of_true (State.interruptible_iff.mpr ⟨rfl, rfl⟩) (.inr rfl)
  | micro x =>
    refine iff_of_false (fun h => ?_) (by simp)
    obtain ⟨-, hbusy⟩ := State.of_enabled_micro h
    exact Bool.noConfusion ((hidle x).symm.trans hbusy)
  | aLeave =>
    refine iff_of_false (fun h => ?_) (by simp)
    obtain ⟨hopen, -⟩ := State.enabled_aLeave_iff.mp h
    cases hopen
  | rxp v =>
    refine iff_of_false (fun h => ?_) (by simp)
    obtain ⟨-, -, hie⟩ := State.enabled_rxp_iff.mp h
    cases hie
  | txc =>
    refine iff_of_false (fun h => ?_) (by simp)
    obtain ⟨-, -, hie, -⟩ := State.enabled_txc_iff.mp h
    cases hie
  | syn b p k =>
    refine iff_of_false (fun h => ?_) (by simp)
    obtain ⟨hlag, -⟩ := State.of_enabled_syn h
    obtain ⟨hne, -⟩ := (State.enabled_syn_iff hlag).mp h
    exact hne (State.resetWith_viewReg c b p)
  | quirk i =>
    refine iff_of_false (fun h => ?_) (by simp)
    obtain ⟨-, hset⟩ := State.enabled_quirk_iff.mp h
    cases i <;> cases hset

/-- Settles O60: with no session open port F may step, and in a quiescent state it is idle. -/
theorem quiescentStatesAcceptACommand : Obligations.QuiescentStatesAcceptACommand := by
  intro s w h
  obtain ⟨hidle, -, hclosed, -, -, -, htxc⟩ := State.quiescent_iff.mp h
  exact ⟨State.enabled_accept_iff.mpr ⟨State.stepping_eq_f.mpr hclosed, hidle⟩, htxc⟩

end Sys2Proof.Machine
end
